-- ==== Sys2Proof/Word.lean ====
section
/-!
DEFINITION. The widths of CRC8RT's words and fields (00_scope.md R6, R7): every value is unsigned, bit 0 is the least significant.
-/
namespace Sys2Proof

/-- A command word or a register word: one indivisible 32-bit unit (R50, R60). -/
abbrev Word := BitVec 32

/-- A CRC value, a payload byte, an opcode, an attempt number (R6). -/
abbrev Byte := BitVec 8

/-- COUNT, BO_BASE, BO_CAP, BACKOFF and the imm16 operand (R6). -/
abbrev Half := BitVec 16

/-- A 7-bit I2C device address (R22). -/
abbrev Addr7 := BitVec 7

/-- A 4-bit result code as RT_REPORT's operand carries it (R33, R62). -/
abbrev Code4 := BitVec 4

/-- A 4-bit index of the register-read space (R40). -/
abbrev RegIndex := BitVec 4

end Sys2Proof
end

