-- ==== Sys2Proof/Syntax.lean ====
section
/-!
DEFINITION. The instructions of CRC8RT, one constructor per row of spec/opcode_table.json (30_encoding.md R64, 42_control.md R111), and the operations that reach the block's ports (00_scope.md R5).
-/
namespace Sys2Proof

/-- The 14 commands and REG_READ. An operand has exactly the width of its field (R62), so no term holds an operand
that does not fit. -/
inductive Instr where
  /-- NOP, R108. -/
  | nop
  /-- CFG_ADDR addr7, R98. -/
  | cfgAddr (addr7 : Addr7)
  /-- CFG_BO_BASE imm16, R86. -/
  | cfgBoBase (imm16 : Half)
  /-- CFG_BO_CAP imm16, R87. -/
  | cfgBoCap (imm16 : Half)
  /-- CLR_ERR, R109. -/
  | clrErr
  /-- CRC_INIT, R99. -/
  | crcInit
  /-- CRC_LOAD imm8, R100. -/
  | crcLoad (imm8 : Byte)
  /-- CRC_BYTE imm8, R101. -/
  | crcByte (imm8 : Byte)
  /-- CRC_CHECK imm8, R102. -/
  | crcCheck (imm8 : Byte)
  /-- RT_START imm8, R81. -/
  | rtStart (imm8 : Byte)
  /-- RT_REPORT code4, R82. The reserved codes 0x9..0xF are spellings of RT_REPORT too: they are rejected by value
  when it runs (R67). -/
  | rtReport (code4 : Code4)
  /-- RT_RETRY, R83. -/
  | rtRetry
  /-- RT_ABORT, R84. -/
  | rtAbort
  /-- RT_CLEAR, R85. -/
  | rtClear
  /-- REG_READ index, R111: an operation of the read port, not a command word (R74). -/
  | regRead (index : RegIndex)
  deriving DecidableEq, Repr

/-- The operand formats of command words (R62). -/
inductive Format where
  /-- no operand -/
  | n
  /-- imm8 in bits 7..0 -/
  | b
  /-- imm16 in bits 15..0 -/
  | h
  /-- addr7 in bits 6..0 -/
  | a
  /-- code4 in bits 3..0 -/
  | e
  deriving DecidableEq, Repr

/-- What can reach the block in one step (R5): a command write, a register read, the reset event, or a reset that
coincides with a command write (R122). -/
inductive HostOp where
  /-- `write_cmd(w)` -/
  | writeCmd (w : Word)
  /-- `read_reg(i)` -/
  | readReg (i : RegIndex)
  /-- `reset` -/
  | reset
  /-- `reset` at the same moment as `write_cmd(w)`: both outcomes of R122 are admitted. -/
  | resetDuringCmd (w : Word)
  deriving DecidableEq, Repr

/-- Why a word spells no command: the two causes a decoder can report (R63, R66). -/
inductive DecodeError where
  /-- OPC is none of R64's. -/
  | unknownOpcode
  /-- A reserved OPND bit of the opcode's format is 1. -/
  | reservedBits
  deriving DecidableEq, Repr

end Sys2Proof
end

