-- ==== Sys2Proof/Machine/Operands.lean ====
section
/-!
DEFINITION. The fields of a command word (30_encoding.md R61, R62, R65), the reserved bits of each format (R63) and the opcode numbers (R64).
-/
namespace Sys2Proof.Machine

/-- OPC, bits 31..24 (R61). -/
def opcField (w : Word) : Byte := w.extractLsb' 24 8

/-- imm8 = w[7:0] (R65). -/
def imm8Field (w : Word) : Byte := w.extractLsb' 0 8

/-- imm16 = w[15:0] (R65). -/
def imm16Field (w : Word) : Half := w.extractLsb' 0 16

/-- addr7 = w[6:0] (R65). -/
def addr7Field (w : Word) : Addr7 := w.extractLsb' 0 7

/-- code4 = w[3:0] (R65). -/
def code4Field (w : Word) : Code4 := w.extractLsb' 0 4

/-- Whether the reserved OPND bits of the format are all 0 (R62, R63). -/
def reservedClear : Format → Word → Bool
  | .n, w => w.extractLsb' 0 24 == 0#24
  | .b, w => w.extractLsb' 8 16 == 0#16
  | .h, w => w.extractLsb' 16 8 == 0#8
  | .a, w => w.extractLsb' 7 17 == 0#17
  | .e, w => w.extractLsb' 4 20 == 0#20

/-- A command word from its opcode and its operand, zero-extended over OPND (R61, R65). -/
def commandWord (opc : Byte) {n : Nat} (operand : BitVec n) : Word := opc ++ operand.setWidth 24

/-! The opcode numbers of R64. -/

def Opc.nop : Byte := 0x00
def Opc.cfgAddr : Byte := 0x01
def Opc.cfgBoBase : Byte := 0x02
def Opc.cfgBoCap : Byte := 0x03
def Opc.clrErr : Byte := 0x04
def Opc.crcInit : Byte := 0x10
def Opc.crcLoad : Byte := 0x11
def Opc.crcByte : Byte := 0x12
def Opc.crcCheck : Byte := 0x13
def Opc.rtStart : Byte := 0x20
def Opc.rtReport : Byte := 0x21
def Opc.rtRetry : Byte := 0x22
def Opc.rtAbort : Byte := 0x23
def Opc.rtClear : Byte := 0x24

end Sys2Proof.Machine
end

