-- ==== Sys2Proof/Decode.lean ====
section
/-!
DEFINITION. The decoder of command words, total on all 2^32 words and rejecting by cause (30_encoding.md R63, R64, R66, R68), the encoder of instructions as port operations, and the host's numbering of a table row's bits.
-/
namespace Sys2Proof

open Sys2Proof.Machine

/-- The instruction, if the reserved bits of its format are clear (R63). -/
def checkReserved (f : Format) (w : Word) (i : Instr) : Except DecodeError Instr :=
  if reservedClear f w then .ok i else .error .reservedBits

/-- The instruction a command word spells: OPC selects the row (R64), an OPC outside the table is refused whatever OPND
holds (R66), then the reserved bits are checked (R63, R117). -/
def decodeCommand (w : Word) : Except DecodeError Instr :=
  if opcField w = Opc.nop then checkReserved .n w .nop
  else if opcField w = Opc.cfgAddr then checkReserved .a w (.cfgAddr (addr7Field w))
  else if opcField w = Opc.cfgBoBase then checkReserved .h w (.cfgBoBase (imm16Field w))
  else if opcField w = Opc.cfgBoCap then checkReserved .h w (.cfgBoCap (imm16Field w))
  else if opcField w = Opc.clrErr then checkReserved .n w .clrErr
  else if opcField w = Opc.crcInit then checkReserved .n w .crcInit
  else if opcField w = Opc.crcLoad then checkReserved .b w (.crcLoad (imm8Field w))
  else if opcField w = Opc.crcByte then checkReserved .b w (.crcByte (imm8Field w))
  else if opcField w = Opc.crcCheck then checkReserved .b w (.crcCheck (imm8Field w))
  else if opcField w = Opc.rtStart then checkReserved .b w (.rtStart (imm8Field w))
  else if opcField w = Opc.rtReport then checkReserved .e w (.rtReport (code4Field w))
  else if opcField w = Opc.rtRetry then checkReserved .n w .rtRetry
  else if opcField w = Opc.rtAbort then checkReserved .n w .rtAbort
  else if opcField w = Opc.rtClear then checkReserved .n w .rtClear
  else .error .unknownOpcode

/-- The port operation that carries an instruction: a command word (R62, R64), or a register read for REG_READ (R74). -/
def encode : Instr → HostOp
  | .nop => .writeCmd (commandWord Opc.nop 0#0)
  | .cfgAddr a => .writeCmd (commandWord Opc.cfgAddr a)
  | .cfgBoBase v => .writeCmd (commandWord Opc.cfgBoBase v)
  | .cfgBoCap v => .writeCmd (commandWord Opc.cfgBoCap v)
  | .clrErr => .writeCmd (commandWord Opc.clrErr 0#0)
  | .crcInit => .writeCmd (commandWord Opc.crcInit 0#0)
  | .crcLoad b => .writeCmd (commandWord Opc.crcLoad b)
  | .crcByte b => .writeCmd (commandWord Opc.crcByte b)
  | .crcCheck b => .writeCmd (commandWord Opc.crcCheck b)
  | .rtStart b => .writeCmd (commandWord Opc.rtStart b)
  | .rtReport c => .writeCmd (commandWord Opc.rtReport c)
  | .rtRetry => .writeCmd (commandWord Opc.rtRetry 0#0)
  | .rtAbort => .writeCmd (commandWord Opc.rtAbort 0#0)
  | .rtClear => .writeCmd (commandWord Opc.rtClear 0#0)
  | .regRead i => .readReg i

/-- The instruction a port operation carries, if it carries one. A reset carries none (R74). -/
def decodeOp : HostOp → Option Instr
  | .writeCmd w => (decodeCommand w).toOption
  | .readReg i => some (.regRead i)
  | .reset => none
  | .resetDuringCmd _ => none

/-- The port operation that spec/opcode_table.json's numbering of an instruction's bits stands for (log 8): the row of
REG_READ has a 4-bit index and no word, every other row has 32 bits. -/
def tableOp (nbits w : Nat) : Option HostOp :=
  if nbits ≤ 8 then
    if w < 2 ^ 4 then some (.readReg (BitVec.ofNat 4 w)) else none
  else
    if w < 2 ^ 32 then some (.writeCmd (BitVec.ofNat 32 w)) else none

/-- The instruction the decoder reads from an instruction whose bits, numbered as the opcode table numbers them, are `w`. -/
def decodeTableWord (nbits w : Nat) : Option Instr := (tableOp nbits w).bind decodeOp

end Sys2Proof
end

