-- ==== Sys2Proof/Config.lean ====
section
/-!
DEFINITION. What the spec leaves open: the free value that decides a reset coinciding with a command (60_exceptions.md R122), and the parameter BACKOFF_UNIT (92_eei_decisions.md D36).
-/
namespace Sys2Proof

/-- Free value (log 4). For the n-th reset that coincides with a command: whether the command is lost, leaving the
reset state (`true`), or takes effect on the reset state (`false`). R122 admits both. -/
opaque Config.resetWins : Nat → Bool

/-- Free value (log 12). BACKOFF_UNIT is a positive duration the caller chooses, in some unit of time smaller than any in
use; this is that duration less one. -/
opaque Config.backoffUnitLessOne : Nat

/-- BACKOFF_UNIT, a positive duration (D36). No rule of the block depends on it. -/
def Config.backoffUnit : Nat := Config.backoffUnitLessOne + 1

end Sys2Proof
end

