-- ==== Sys2Proof/Machine/State.lean ====
section
/-!
DEFINITION. The state of one CRC8RT instance (10_state.md R20), beside it what stands before its ports, and its value after reset (70_reset_and_hazards.md R131).
-/
namespace Sys2Proof.Machine

/-- RT_STATE, the retry unit's phase (R29). -/
inductive RtState where
  /-- 0: no transaction -/
  | idle
  /-- 1: an attempt is requested of the host -/
  | issue
  /-- 2: "retry requested" -/
  | wait
  /-- 3: the transaction has ended -/
  | done
  deriving DecidableEq, Repr

/-- The result codes 0x0..0x8 (R33). The reserved codes are never written to RESULT (93_implementation_defined.md I14, log 6). -/
inductive ResultCode where
  | ok
  | busOpen
  | busIo
  | stillMeasuring
  | invalidArgument
  | bufferTooLarge
  | checksum
  | deviceMismatch
  | coeffRead
  deriving DecidableEq, Repr

/-- The class of a result code (R78). -/
inductive ResultClass where
  | success
  | transient
  | fatal
  deriving DecidableEq, Repr

/-- ERR_CAUSE (R116). The codes 0x5..0xF are never written (I14, log 6). -/
inductive ErrCause where
  /-- 0x0: the value when CMD_ERR = 0 -/
  | none
  | unknownOpcode
  | reservedBits
  | badState
  | reservedCode
  deriving DecidableEq, Repr

/-- The CRC unit (R22 to R28, R89). -/
structure CrcUnit where
  devAddr : Addr7
  seed : Byte
  crc : Byte
  count : Half
  chkDone : Bool
  chkOk : Bool
  chkRcvd : Byte
  deriving DecidableEq, Repr

/-- The retry unit (R29 to R37). -/
structure RetryUnit where
  rtState : RtState
  maxAtt : Byte
  attempt : Byte
  result : ResultCode
  exhausted : Bool
  aborted : Bool
  boBase : Half
  boCap : Half
  backoff : Half
  deriving DecidableEq, Repr

/-- The command-error record, the only state the two units share (R38, R88). -/
structure ErrorRecord where
  cmdErr : Bool
  errCause : ErrCause
  errOpc : Byte
  deriving DecidableEq, Repr

/-- What stands before the block's ports. It is the model's own and no element of R20: nothing inside the block depends
on it (R44). -/
structure HostPort where
  /-- The operations the host and the reset source are going to issue, oldest first: the total order of R55 (log 1). -/
  pending : List HostOp
  /-- The words the read port has returned, newest first (R111, log 3). -/
  answers : List Word
  /-- How many resets have coincided with a command: the index of the next free value (R122, log 4). -/
  races : Nat
  deriving DecidableEq, Repr

/-- One CRC8RT instance: the elements of R20 by unit, and what stands before its ports. -/
structure State where
  crcUnit : CrcUnit
  retryUnit : RetryUnit
  errors : ErrorRecord
  host : HostPort
  deriving DecidableEq, Repr

/-- The block has "no trap and no stuck state of its own" (R14), so no step ends in a fault: there is none to name, and
nobody raises one. An illegal command is a next state (R115). -/
inductive Fault where
  deriving DecidableEq, Repr

/-- The reasons a step can be refused. -/
inductive Refusal where
  /-- Raised by an arm of `exec` whose instruction has no meaning yet, and by nothing else. No arm of this model raises it.
  Safe: the machine stops where the hardware goes on. -/
  | notModelled (mnemonic : String)
  deriving DecidableEq, Repr

/-- What a step answers. -/
abbrev Answer := Host.Outcome State Fault Refusal

/-- The machine right after reset (R20, R131). The spec gives every element of the block its reset value; the three
fields of `host` are the model's own, and nothing has been issued, answered or raced (DESIGN CHOICE, logs 1, 3 and 4). -/
def State.reset : State where
  crcUnit :=
    { devAddr := 0x00, seed := 0x07, crc := 0x00, count := 0x0000, chkDone := false, chkOk := false, chkRcvd := 0x00 }
  retryUnit :=
    { rtState := .idle, maxAtt := 0x00, attempt := 0x00, result := .ok, exhausted := false, aborted := false,
      boBase := 0x0001, boCap := 0xFFFF, backoff := 0x0000 }
  errors := { cmdErr := false, errCause := .none, errOpc := 0x00 }
  host := { pending := [], answers := [], races := 0 }

end Sys2Proof.Machine
end

