-- ==== Sys2Proof/Machine/Ops.lean ====
section
/-!
DEFINITION. The operations the meanings share: the CRC functions (41_crc.md R92 to R96), the codes and their classes (10_state.md R33, 40_retry.md R78), the backoff (R80), the command error (60_exceptions.md R115) and the reset event (70_reset_and_hazards.md R131).
-/
namespace Sys2Proof.Machine

/-! ## The CRC -/

/-- One iteration of R95's loop: shift left, and XOR the generator 0x07 if the bit shifted out of bit 7 was 1 (R90). -/
def crcShift (t : Byte) : Byte := if t.msb then (t <<< 1) ^^^ 0x07 else t <<< 1

/-- `n` iterations of R95's loop, most significant bit first (R47). -/
def crcShifts : Nat → Byte → Byte
  | 0, t => t
  | n + 1, t => crcShifts n (crcShift t)

/-- The map L of R95: the loop's eight iterations. -/
def crcMap (t : Byte) : Byte := crcShifts 8 t

/-- `crc_step(c, b)` (R95): the byte is XORed into the running value, which is then shifted eight times (R91). -/
def crcStep (c b : Byte) : Byte := crcMap (c ^^^ b)

/-- `crc8(seed, data)` (R92). -/
def crc8 (seed : Byte) : List Byte → Byte
  | [] => seed
  | b :: rest => crc8 (crcStep seed b) rest

/-- The I2C read-address byte `{a[6:0], 1}` (R10, R96). -/
def readAddressByte (a : Addr7) : Byte := a ++ 1#1

/-- `seed_of(a)` (R96). -/
def seedOf (a : Addr7) : Byte := crc8 0x00 [readAddressByte a]

/-- `validate(packet, a)` (R94): the CRC over all bytes but the last against the last. A packet of no bytes has no value. -/
def validate (packet : List Byte) (a : Addr7) : Option Bool :=
  match packet.getLast? with
  | some check => some (crc8 (seedOf a) packet.dropLast == check)
  | none => none

/-- `min(COUNT + 1, 0xFFFF)`, exact and then narrowed (R25, R101). -/
def countUp (count : Half) : Half := BitVec.ofNat 16 (min (count.toNat + 1) 0xFFFF)

/-! ## Codes -/

/-- RT_STATE's two bits (R29). -/
def RtState.toBits : RtState → BitVec 2
  | .idle => 0
  | .issue => 1
  | .wait => 2
  | .done => 3

/-- RESULT's four bits (R33). -/
def ResultCode.toCode4 : ResultCode → Code4
  | .ok => 0x0
  | .busOpen => 0x1
  | .busIo => 0x2
  | .stillMeasuring => 0x3
  | .invalidArgument => 0x4
  | .bufferTooLarge => 0x5
  | .checksum => 0x6
  | .deviceMismatch => 0x7
  | .coeffRead => 0x8

/-- The result a code names; the codes 0x9..0xF name none (R33, R67). -/
def ResultCode.ofCode4 (c : Code4) : Option ResultCode :=
  if c = 0x0 then some .ok
  else if c = 0x1 then some .busOpen
  else if c = 0x2 then some .busIo
  else if c = 0x3 then some .stillMeasuring
  else if c = 0x4 then some .invalidArgument
  else if c = 0x5 then some .bufferTooLarge
  else if c = 0x6 then some .checksum
  else if c = 0x7 then some .deviceMismatch
  else if c = 0x8 then some .coeffRead
  else none

/-- `class`, a constant function of the code alone (R78). -/
def ResultCode.classOf : ResultCode → ResultClass
  | .ok => .success
  | .busOpen => .transient
  | .busIo => .transient
  | .stillMeasuring => .transient
  | .invalidArgument => .fatal
  | .bufferTooLarge => .fatal
  | .checksum => .fatal
  | .deviceMismatch => .fatal
  | .coeffRead => .fatal

/-- ERR_CAUSE's four bits (R116). -/
def ErrCause.toBits : ErrCause → BitVec 4
  | .none => 0x0
  | .unknownOpcode => 0x1
  | .reservedBits => 0x2
  | .badState => 0x3
  | .reservedCode => 0x4

/-- The cause recorded for a word that spells no command (R63, R66). -/
def causeOf : DecodeError → ErrCause
  | .unknownOpcode => .unknownOpcode
  | .reservedBits => .reservedBits

/-! ## The backoff -/

/-- `backoff(k) = min(BO_BASE * 2^(k-1), BO_CAP)` in exact arithmetic, then narrowed (R80). R80 gives it for k from 1;
the value at 0 is used in no reachable state (log 7). -/
def backoffAt (base cap : Half) (k : Nat) : Half :=
  BitVec.ofNat 16 (min (base.toNat * 2 ^ (k - 1)) cap.toNat)

/-- R80's second form, over 32-bit words. -/
def backoffByShift (base cap : Half) (k : Nat) : Half :=
  if base = 0 then 0
  else if k - 1 ≥ 16 then cap
  else
    let shifted : Word := base.setWidth 32 <<< (k - 1)
    let limit : Word := cap.setWidth 32
    if shifted ≤ limit then shifted.extractLsb' 0 16 else limit.extractLsb' 0 16

/-! ## Writing the state, one unit at a time -/

/-- The state with the CRC unit replaced. -/
def State.setCrcUnit (s : State) (u : CrcUnit) : State := { s with crcUnit := u }

/-- The state with the retry unit replaced. -/
def State.setRetryUnit (s : State) (u : RetryUnit) : State := { s with retryUnit := u }

/-- The state with the command-error record replaced. -/
def State.setErrors (s : State) (e : ErrorRecord) : State := { s with errors := e }

/-- The state after the read port returned `w`: nothing inside the block changes (R111). -/
def State.answer (s : State) (w : Word) : State :=
  { s with host := { s.host with answers := w :: s.host.answers } }

/-! ## The command error and the reset event -/

/-- The error record after a command error: only the first since CMD_ERR was last 0 is recorded (R38, R115). -/
def ErrorRecord.capture (e : ErrorRecord) (cause : ErrCause) (opc : Byte) : ErrorRecord :=
  if e.cmdErr then e else { cmdErr := true, errCause := cause, errOpc := opc }

/-- `cmd_error(cause)` for a command word with opcode `opc`, the block's only exception (R115). Nothing but the error
record changes; no pc is saved and no mode changes, since there is none (R123). -/
def cmdError (cause : ErrCause) (opc : Byte) (s : State) : State :=
  s.setErrors (s.errors.capture cause opc)

/-- The cleared error record, which re-arms the capture: what stands for a return from an exception (R109, R124). -/
def ErrorRecord.clear : ErrorRecord := { cmdErr := false, errCause := .none, errOpc := 0x00 }

/-- A command of the retry unit that is legal only in `want`: its effect there, BAD_STATE elsewhere (R75, R116). -/
def inRtState (want : RtState) (opc : Byte) (s : State) (effect : Answer) : Answer :=
  if s.retryUnit.rtState = want then effect else .next (cmdError .badState opc s)

/-- `reset`: every element of the block at its reset value (R131). What stands before the ports is not the block's and
stays (log 5). -/
def resetBlock (s : State) : State := { State.reset with host := s.host }

/-- The state with one more coincidence of a reset and a command counted (log 4). -/
def State.countRace (s : State) : State := { s with host := { s.host with races := s.host.races + 1 } }

end Sys2Proof.Machine
end

