-- ==== Sys2Proof/Machine/Flags.lean ====
section
/-!
DEFINITION. The derived flags (10_state.md R39) and the STATUS word they stand in (R41).
-/
namespace Sys2Proof.Machine

/-- `OP_REQ = (RT_STATE == ISSUE)` (R39). -/
def opReq (u : RetryUnit) : Bool := u.rtState == .issue

/-- `RETRY_REQ = (RT_STATE == WAIT)` (R39). -/
def retryReq (u : RetryUnit) : Bool := u.rtState == .wait

/-- `RT_DONE = (RT_STATE == DONE)` (R39). -/
def rtDone (u : RetryUnit) : Bool := u.rtState == .done

/-- `CHK_FAIL = CHK_DONE & ~CHK_OK` (R39). -/
def chkFail (u : CrcUnit) : Bool := u.chkDone && !u.chkOk

/-- A stored or derived flag as one bit. -/
def flagBit (b : Bool) : BitVec 1 := BitVec.ofBool b

/-- STATUS, register index 0x1 (R41). -/
def statusWord (s : State) : Word :=
  (s.errors.errCause.toBits ++ flagBit s.errors.cmdErr
    ++ flagBit (chkFail s.crcUnit) ++ flagBit s.crcUnit.chkOk ++ flagBit s.crcUnit.chkDone
    ++ s.retryUnit.result.toCode4 ++ 0#1 ++ flagBit s.retryUnit.aborted ++ flagBit s.retryUnit.exhausted
    ++ flagBit (rtDone s.retryUnit) ++ flagBit (retryReq s.retryUnit) ++ flagBit (opReq s.retryUnit)
    ++ s.retryUnit.rtState.toBits).setWidth 32

end Sys2Proof.Machine
end

