-- ==== Sys2Proof/Machine/Registers.lean ====
section
/-!
DEFINITION. The register words (10_state.md R42) and the read map (R40).
-/
namespace Sys2Proof.Machine

/-- ID, the constant "CR8" version 1 (R2, R42). -/
def idWord : Word := 0x43523801

/-- CRCREG: CHK_RCVD, SEED, CRC (R42). -/
def crcRegWord (s : State) : Word := (s.crcUnit.chkRcvd ++ s.crcUnit.seed ++ s.crcUnit.crc).setWidth 32

/-- ADDRREG: the read-address byte above DEV_ADDR (R42). -/
def addrRegWord (s : State) : Word := (s.crcUnit.devAddr ++ 1#1 ++ 0#1 ++ s.crcUnit.devAddr).setWidth 32

/-- COUNTREG (R42). -/
def countRegWord (s : State) : Word := s.crcUnit.count.setWidth 32

/-- RTREG: RESULT, MAXATT, ATTEMPT (R42). -/
def rtRegWord (s : State) : Word :=
  (s.retryUnit.result.toCode4 ++ s.retryUnit.maxAtt ++ s.retryUnit.attempt).setWidth 32

/-- BOCFG: BO_CAP above BO_BASE (R42). -/
def boCfgWord (s : State) : Word := s.retryUnit.boCap ++ s.retryUnit.boBase

/-- BODELAY (R42). -/
def boDelayWord (s : State) : Word := s.retryUnit.backoff.setWidth 32

/-- ERRINFO: CMD_ERR, ERR_OPC, four zero bits, ERR_CAUSE (R42). -/
def errInfoWord (s : State) : Word :=
  (flagBit s.errors.cmdErr ++ s.errors.errOpc ++ 0#4 ++ s.errors.errCause.toBits).setWidth 32

/-- `read_reg(i)`: the word of the index; the reserved indices 0x9..0xF read 0 (R40, R111). -/
def readRegister (s : State) (i : RegIndex) : Word :=
  if i = 0x0 then idWord
  else if i = 0x1 then statusWord s
  else if i = 0x2 then crcRegWord s
  else if i = 0x3 then addrRegWord s
  else if i = 0x4 then countRegWord s
  else if i = 0x5 then rtRegWord s
  else if i = 0x6 then boCfgWord s
  else if i = 0x7 then boDelayWord s
  else if i = 0x8 then errInfoWord s
  else 0x00000000

end Sys2Proof.Machine
end

