-- ==== Sys2Proof/Machine/Control.lean ====
section
/-!
DEFINITION. The meanings of NOP, CLR_ERR and REG_READ (42_control.md R108, R109, R111).
-/
namespace Sys2Proof.Machine

/-- NOP: no state changes (R108). -/
def execNop (s : State) : Answer := .next s

/-- CLR_ERR: `CMD_ERR <- 0; ERR_CAUSE <- 0x0; ERR_OPC <- 0x00` (R109). -/
def execClrErr (s : State) : Answer := .next (s.setErrors ErrorRecord.clear)

/-- REG_READ: the read port returns the register's word, computed from the current state; no state of the block changes
(R111). -/
def execRegRead (i : RegIndex) (s : State) : Answer := .next (s.answer (readRegister s i))

end Sys2Proof.Machine
end

