-- ==== Sys2Proof/Machine/Crc.lean ====
section
/-!
DEFINITION. The meanings of the CRC unit's five commands (41_crc.md R98 to R102), all legal in every state (R89).
-/
namespace Sys2Proof.Machine

/-- DEV_ADDR and, in the same step, SEED (R23, R98). -/
def CrcUnit.configure (u : CrcUnit) (a : Addr7) : CrcUnit := { u with devAddr := a, seed := seedOf a }

/-- The unit at the start of a packet with running value `c` (R99, R100). -/
def CrcUnit.begin (u : CrcUnit) (c : Byte) : CrcUnit :=
  { u with crc := c, count := 0x0000, chkDone := false, chkOk := false, chkRcvd := 0x00 }

/-- One payload byte absorbed; the verdict stays (R101). -/
def CrcUnit.absorb (u : CrcUnit) (b : Byte) : CrcUnit :=
  { u with crc := crcStep u.crc b, count := countUp u.count }

/-- The trailing byte compared with the running value, which stays (R102). -/
def CrcUnit.check (u : CrcUnit) (b : Byte) : CrcUnit :=
  { u with chkRcvd := b, chkDone := true, chkOk := u.crc == b }

/-- CFG_ADDR (R98). -/
def execCfgAddr (addr7 : Addr7) (s : State) : Answer := .next (s.setCrcUnit (s.crcUnit.configure addr7))

/-- CRC_INIT (R99). -/
def execCrcInit (s : State) : Answer := .next (s.setCrcUnit (s.crcUnit.begin s.crcUnit.seed))

/-- CRC_LOAD (R100). -/
def execCrcLoad (imm8 : Byte) (s : State) : Answer := .next (s.setCrcUnit (s.crcUnit.begin imm8))

/-- CRC_BYTE (R101). -/
def execCrcByte (imm8 : Byte) (s : State) : Answer := .next (s.setCrcUnit (s.crcUnit.absorb imm8))

/-- CRC_CHECK (R102). A mismatch is a data outcome, no command error (R103, R119). -/
def execCrcCheck (imm8 : Byte) (s : State) : Answer := .next (s.setCrcUnit (s.crcUnit.check imm8))

end Sys2Proof.Machine
end

