-- ==== Sys2Proof/Machine/Retry.lean ====
section
/-!
DEFINITION. The meanings of the retry unit's seven commands (40_retry.md R81 to R87).
-/
namespace Sys2Proof.Machine

/-- A transaction begun with budget `m`; a budget of 0 ends it at once with INVALID_ARGUMENT (R81). -/
def RetryUnit.start (u : RetryUnit) (m : Byte) : RetryUnit :=
  if m = 0 then
    { u with maxAtt := m, exhausted := false, aborted := false, backoff := 0x0000,
             result := .invalidArgument, attempt := 0x00, rtState := .done }
  else
    { u with maxAtt := m, exhausted := false, aborted := false, backoff := 0x0000,
             result := .ok, attempt := 0x01, rtState := .issue }

/-- The outcome of the current attempt taken in, by its class (R78, R82). -/
def RetryUnit.report (u : RetryUnit) (r : ResultCode) : RetryUnit :=
  match r.classOf with
  | .success => { u with result := r, rtState := .done }
  | .fatal => { u with result := r, rtState := .done }
  | .transient =>
    if u.attempt.toNat < u.maxAtt.toNat then
      { u with result := r, backoff := backoffAt u.boBase u.boCap u.attempt.toNat, rtState := .wait }
    else
      { u with result := r, exhausted := true, rtState := .done }

/-- The next attempt begun (R83). -/
def RetryUnit.retry (u : RetryUnit) : RetryUnit := { u with attempt := u.attempt + 1, rtState := .issue }

/-- The transaction given up between attempts; RESULT keeps the last error (R84). -/
def RetryUnit.abort (u : RetryUnit) : RetryUnit := { u with aborted := true, rtState := .done }

/-- The finished transaction acknowledged; its result stays readable (R85). -/
def RetryUnit.acknowledge (u : RetryUnit) : RetryUnit := { u with rtState := .idle }

/-- CFG_BO_BASE, legal in every RT_STATE (R86). -/
def execCfgBoBase (imm16 : Half) (s : State) : Answer :=
  .next (s.setRetryUnit { s.retryUnit with boBase := imm16 })

/-- CFG_BO_CAP, legal in every RT_STATE (R87). -/
def execCfgBoCap (imm16 : Half) (s : State) : Answer :=
  .next (s.setRetryUnit { s.retryUnit with boCap := imm16 })

/-- RT_START, legal in IDLE (R81). -/
def execRtStart (imm8 : Byte) (s : State) : Answer :=
  inRtState .idle Opc.rtStart s (.next (s.setRetryUnit (s.retryUnit.start imm8)))

/-- RT_REPORT, legal in ISSUE; there a code that names no result is RESERVED_CODE (R67, R82, R117). -/
def execRtReport (code4 : Code4) (s : State) : Answer :=
  inRtState .issue Opc.rtReport s
    (match ResultCode.ofCode4 code4 with
     | some r => .next (s.setRetryUnit (s.retryUnit.report r))
     | none => .next (cmdError .reservedCode Opc.rtReport s))

/-- RT_RETRY, legal in WAIT. The block does not check that the caller waited (R83, R137). -/
def execRtRetry (s : State) : Answer :=
  inRtState .wait Opc.rtRetry s (.next (s.setRetryUnit s.retryUnit.retry))

/-- RT_ABORT, legal in WAIT (R84). -/
def execRtAbort (s : State) : Answer :=
  inRtState .wait Opc.rtAbort s (.next (s.setRetryUnit s.retryUnit.abort))

/-- RT_CLEAR, legal in DONE (R85). -/
def execRtClear (s : State) : Answer :=
  inRtState .done Opc.rtClear s (.next (s.setRetryUnit s.retryUnit.acknowledge))

end Sys2Proof.Machine
end

