-- ==== Sys2Proof/Machine/Dispatch.lean ====
section
/-!
DEFINITION. One arm per constructor of Instr, each one call of that instruction's meaning.
-/
namespace Sys2Proof.Machine

def exec (i : Instr) (s : State) : Host.Outcome State Fault Refusal :=
  match i with
  | .nop => Sys2Proof.Machine.execNop s
  | .cfgAddr addr7 => Sys2Proof.Machine.execCfgAddr addr7 s
  | .cfgBoBase imm16 => Sys2Proof.Machine.execCfgBoBase imm16 s
  | .cfgBoCap imm16 => Sys2Proof.Machine.execCfgBoCap imm16 s
  | .clrErr => Sys2Proof.Machine.execClrErr s
  | .crcInit => Sys2Proof.Machine.execCrcInit s
  | .crcLoad imm8 => Sys2Proof.Machine.execCrcLoad imm8 s
  | .crcByte imm8 => Sys2Proof.Machine.execCrcByte imm8 s
  | .crcCheck imm8 => Sys2Proof.Machine.execCrcCheck imm8 s
  | .rtStart imm8 => Sys2Proof.Machine.execRtStart imm8 s
  | .rtReport code4 => Sys2Proof.Machine.execRtReport code4 s
  | .rtRetry => Sys2Proof.Machine.execRtRetry s
  | .rtAbort => Sys2Proof.Machine.execRtAbort s
  | .rtClear => Sys2Proof.Machine.execRtClear s
  | .regRead index => Sys2Proof.Machine.execRegRead index s

end Sys2Proof.Machine
end

