-- ==== Sys2Proof/Machine/Port.lean ====
section
/-!
DEFINITION. What one operation at the ports does: a command write (30_encoding.md R68), a register read, the reset event (70_reset_and_hazards.md R131, R133) and a reset coinciding with a command (60_exceptions.md R122).
-/
namespace Sys2Proof.Machine

/-- `write_cmd(w)`: the command the word spells, or the command error of a word that spells none (R13, R63, R66). -/
def runCommand (w : Word) (s : State) : Answer :=
  match decodeCommand w with
  | .ok i => exec i s
  | .error e => .next (cmdError (causeOf e) (opcField w) s)

/-- One port operation. Of the two outcomes R122 admits for a reset coinciding with a command, the free value picks one. -/
def runOp (op : HostOp) (s : State) : Answer :=
  match op with
  | .writeCmd w => runCommand w s
  | .readReg i => exec (.regRead i) s
  | .reset => .next (resetBlock s)
  | .resetDuringCmd w =>
    if Config.resetWins s.host.races then .next (resetBlock s.countRace)
    else runCommand w (resetBlock s.countRace)

/-- The oldest pending operation and the state with it taken from the queue. -/
def nextOp (s : State) : Option (HostOp × State) :=
  match s.host.pending with
  | [] => none
  | op :: rest => some (op, { s with host := { s.host with pending := rest } })

/-- The state with an operation put before all pending ones. -/
def State.place (s : State) (op : HostOp) : State :=
  { s with host := { s.host with pending := op :: s.host.pending } }

end Sys2Proof.Machine
end

