-- ==== Sys2Proof/Machine/Step.lean ====
section
/-!
DEFINITION. One step: the oldest pending operation takes effect completely before the next begins (20_memory.md R55).
-/
namespace Sys2Proof.Machine

/-- The block never steps on its own (00_scope.md R11): with nothing pending, its state persists (R130, log 2). -/
def step (s : State) : Host.Outcome State Fault Refusal :=
  match nextOp s with
  | some (op, s') => runOp op s'
  | none => .next s

/-- The state in which the host issues next the instruction whose bits, numbered as the opcode table numbers them, are
`w` (log 1, log 8). Bits that no port operation carries leave the state as it is. -/
def State.withFetchWord (s : State) (nbits w : Nat) : State :=
  match tableOp nbits w with
  | some op => s.place op
  | none => s

end Sys2Proof.Machine
end

