-- ==== Sys2Proof/WellFormed.lean ====
section
/-!
DEFINITION. What the spec asks of a spelling before it is an instruction: a command word matches a row of the opcode table
(30_encoding.md R62, R64), an operand written as a number fits its field (R69), a packet has a checksum byte (R71).
A term of `Instr` carries operands of exactly their fields' widths, so nothing is left to check of the term itself.
-/
namespace Sys2Proof

/-- One row of R64's opcode map, as spec/opcode_table.json gives it. -/
structure OpcodeRow where
  mnemonic : String
  format : Format
  matchBits : Word
  mask : Word
  deriving DecidableEq, Repr

/-- The 14 command rows of R64. -/
def opcodeRows : List OpcodeRow := [
  ⟨"NOP",         .n, 0x00000000, 0xFFFFFFFF⟩,
  ⟨"CFG_ADDR",    .a, 0x01000000, 0xFFFFFF80⟩,
  ⟨"CFG_BO_BASE", .h, 0x02000000, 0xFFFF0000⟩,
  ⟨"CFG_BO_CAP",  .h, 0x03000000, 0xFFFF0000⟩,
  ⟨"CLR_ERR",     .n, 0x04000000, 0xFFFFFFFF⟩,
  ⟨"CRC_INIT",    .n, 0x10000000, 0xFFFFFFFF⟩,
  ⟨"CRC_LOAD",    .b, 0x11000000, 0xFFFFFF00⟩,
  ⟨"CRC_BYTE",    .b, 0x12000000, 0xFFFFFF00⟩,
  ⟨"CRC_CHECK",   .b, 0x13000000, 0xFFFFFF00⟩,
  ⟨"RT_START",    .b, 0x20000000, 0xFFFFFF00⟩,
  ⟨"RT_REPORT",   .e, 0x21000000, 0xFFFFFFF0⟩,
  ⟨"RT_RETRY",    .n, 0x22000000, 0xFFFFFFFF⟩,
  ⟨"RT_ABORT",    .n, 0x23000000, 0xFFFFFFFF⟩,
  ⟨"RT_CLEAR",    .n, 0x24000000, 0xFFFFFFFF⟩]

/-- The mnemonic of an instruction, as spec/opcode_table.json spells it. -/
def Instr.mnemonic : Instr → String
  | .nop => "NOP"
  | .cfgAddr _ => "CFG_ADDR"
  | .cfgBoBase _ => "CFG_BO_BASE"
  | .cfgBoCap _ => "CFG_BO_CAP"
  | .clrErr => "CLR_ERR"
  | .crcInit => "CRC_INIT"
  | .crcLoad _ => "CRC_LOAD"
  | .crcByte _ => "CRC_BYTE"
  | .crcCheck _ => "CRC_CHECK"
  | .rtStart _ => "RT_START"
  | .rtReport _ => "RT_REPORT"
  | .rtRetry => "RT_RETRY"
  | .rtAbort => "RT_ABORT"
  | .rtClear => "RT_CLEAR"
  | .regRead _ => "REG_READ"

/-- "A word w selects row r exactly when (w & r.mask) == r.match" (R64). -/
def OpcodeRow.selects (r : OpcodeRow) (w : Word) : Bool := (w &&& r.mask) == r.matchBits

/-- A well-formed command word: some row of the table selects it. -/
def wellFormedWord (w : Word) : Bool := opcodeRows.any (·.selects w)

/-- The fields an operand can be written into (R62; the index of a register read, R74). -/
inductive OperandField where
  | imm8
  | imm16
  | addr7
  | code4
  | index
  deriving DecidableEq, Repr

/-- How many bits the field has (R62, R74). -/
def OperandField.width : OperandField → Nat
  | .imm8 => 8
  | .imm16 => 16
  | .addr7 => 7
  | .code4 => 4
  | .index => 4

/-- "The assembler refuses an operand that does not fit its field" (R69). -/
def OperandField.fits (f : OperandField) (n : Nat) : Bool := n < 2 ^ f.width

/-- A packet that `validate` can be asked about has its checksum byte (R71, R94). -/
def wellFormedPacket (packet : List Byte) : Bool := !packet.isEmpty

end Sys2Proof
end

