-- ==== Sys2Proof/Machine/Procedures.lean ====
section
/-!
DEFINITION. The pseudo-instructions CRC8, VALIDATE and VALIDATE_SEEDED (30_encoding.md R70 to R72), commands issued one after another, and the host procedure PERFORM (R73).
-/
namespace Sys2Proof.Machine

/-- Instructions issued one after another, each taking full effect before the next (R55). -/
def execAll : List Instr → State → Answer
  | [], s => .next s
  | i :: rest, s =>
    match exec i s with
    | .next s' => execAll rest s'
    | .fault r => .fault r
    | .refused r => .refused r

/-- `CRC8 s, d0, ..., d(m-1)` (R70). -/
def crc8Program (seed : Byte) (data : List Byte) : List Instr := .crcLoad seed :: data.map .crcByte

/-- `VALIDATE_SEEDED p0, ..., p(n-1)` (R72); refused for a packet of no bytes. -/
def validateSeededProgram (packet : List Byte) : Option (List Instr) :=
  if wellFormedPacket packet then
    some (.crcInit :: packet.dropLast.map .crcByte ++ packet.getLast?.toList.map .crcCheck)
  else none

/-- `VALIDATE a, p0, ..., p(n-1)` (R71); refused for a packet of no bytes. -/
def validateProgram (a : Addr7) (packet : List Byte) : Option (List Instr) :=
  (validateSeededProgram packet).map (.cfgAddr a :: ·)

/-- PERFORM's loop (R73, log 10), for at most `fuel` passes. On the STATUS it reads, the host reports the attempt it made
while OP_REQ, sends RT_RETRY or RT_ABORT while RETRY_REQ, and RT_CLEAR while RT_DONE. `outcomes` are the results of the
attempts the host will make, in order (R11), and `giveUp k` is whether it sends RT_ABORT after attempt `k` (R16). It answers
the transaction's result and the state after RT_CLEAR, and `none` where the host has no outcome to report, RT_STATE is IDLE, or
the passes ran out. The STATUS it reads is taken from the state and does not enter `host.answers`, as the word of a REG_READ
does: R73 does not say, and this is the model's choice (DESIGN CHOICE, log 10). -/
def performLoop (giveUp : Byte → Bool) : Nat → List ResultCode → State → Option (Code4 × State)
  | 0, _, _ => none
  | fuel + 1, outcomes, s =>
    let status := readRegister s 0x1
    if status.getLsbD 2 then
      match outcomes with
      | r :: rest =>
        match exec (.rtReport r.toCode4) s with
        | .next s' => performLoop giveUp fuel rest s'
        | _ => none
      | [] => none
    else if status.getLsbD 3 then
      match exec (if giveUp s.retryUnit.attempt then .rtAbort else .rtRetry) s with
      | .next s' => performLoop giveUp fuel outcomes s'
      | _ => none
    else if status.getLsbD 4 then
      match exec .rtClear s with
      | .next s' => some (status.extractLsb' 8 4, s')
      | _ => none
    else none

/-- `PERFORM m` (R73): at most m passes report an attempt, at most m - 1 retry, and one acknowledges. R73 requires IDLE before
it; elsewhere its RT_START is a command error and the loop goes on with the transaction it finds (DESIGN CHOICE, log 10). -/
def perform (m : Byte) (outcomes : List ResultCode) (giveUp : Byte → Bool) (s : State) : Option (Code4 × State) :=
  match exec (.rtStart m) s with
  | .next s' => performLoop giveUp (2 * m.toNat + 1) outcomes s'
  | _ => none

/-- The commands of a transaction that reports these outcomes in order and retries between them (R77). -/
def reportAll : List ResultCode → List Instr
  | [] => []
  | [r] => [.rtReport r.toCode4]
  | r :: next :: rest => .rtReport r.toCode4 :: .rtRetry :: reportAll (next :: rest)

/-- How long the host is to wait before RT_RETRY, in the time of `Config.backoffUnitLessOne` (R16, R137). The block checks
nothing of it. -/
def retryDelay (s : State) : Nat := s.retryUnit.backoff.toNat * Config.backoffUnit

end Sys2Proof.Machine
end

