-- ==== Sys2Proof/Machine/Assembler.lean ====
section
/-!
DEFINITION. The assembler syntax (30_encoding.md R69): one line of text to the port operations it stands for.
-/
namespace Sys2Proof.Machine

/-- Why the assembler refuses a line. -/
inductive AsmError where
  /-- The first word is no mnemonic. -/
  | unknownMnemonic
  /-- A missing operand, or one too many. -/
  | wrongOperandCount
  /-- An operand that is no number and no name allowed there. -/
  | badOperand
  /-- An operand that does not fit its field (R69). -/
  | operandTooLarge
  /-- VALIDATE or VALIDATE_SEEDED with no packet byte (R71). -/
  | emptyPacket
  /-- A PERFORM line, whatever its operands. R73 calls PERFORM a host procedure and no expansion, and does not say that the
  assembler refuses it: the refusal is the model's choice (DESIGN CHOICE, log 9). -/
  | hostProcedure
  deriving DecidableEq, Repr

/-- The line up to its comment: `;` starts one (R69). -/
def dropComment (line : List Char) : List Char := line.takeWhile (· != ';')

/-- Blanks and commas separate a line's words (log 9). -/
def isSeparator (c : Char) : Bool := c == ' ' || c == '\t' || c == ','

/-- The words of a line. -/
def splitWords : List Char → List (List Char)
  | [] => []
  | c :: rest =>
    if isSeparator c then splitWords rest
    else
      match rest with
      | [] => [[c]]
      | d :: _ =>
        if isSeparator d then [c] :: splitWords rest
        else
          match splitWords rest with
          | w :: ws => (c :: w) :: ws
          | [] => [[c]]

/-- A decimal or hex digit's value, either case of the letters (log 9). -/
def digitValue (c : Char) : Option Nat :=
  let n := c.toNat
  if 48 ≤ n && n ≤ 57 then some (n - 48)
  else if 65 ≤ n && n ≤ 70 then some (n - 55)
  else if 97 ≤ n && n ≤ 102 then some (n - 87)
  else none

/-- The number digits spell in a base, from the value read so far; none if a character is no digit of it. -/
def digitsFrom (base : Nat) : Nat → List Char → Option Nat
  | acc, [] => some acc
  | acc, c :: rest =>
    match digitValue c with
    | some d => if d < base then digitsFrom base (acc * base + d) rest else none
    | none => none

/-- "An unsigned number in decimal or `0x` hex" (R69); in hex `_` may separate digits (R7). -/
def parseNumber : List Char → Option Nat
  | '0' :: 'x' :: digits =>
    match digits.filter (· != '_') with
    | [] => none
    | ds => digitsFrom 16 0 ds
  | [] => none
  | digits => digitsFrom 10 0 digits

/-- The result-code names RT_REPORT's operand may be written with (R33, R69). -/
def resultCodeNames : List (String × ResultCode) :=
  [("OK", .ok), ("BUS_OPEN", .busOpen), ("BUS_IO", .busIo), ("STILL_MEASURING", .stillMeasuring),
   ("INVALID_ARGUMENT", .invalidArgument), ("BUFFER_TOO_LARGE", .bufferTooLarge), ("CHECKSUM", .checksum),
   ("DEVICE_MISMATCH", .deviceMismatch), ("COEFF_READ", .coeffRead)]

/-- The register names `RD` may be written with (R40, R69). -/
def registerNames : List (String × Nat) :=
  [("ID", 0), ("STATUS", 1), ("CRCREG", 2), ("ADDRREG", 3), ("COUNTREG", 4), ("RTREG", 5), ("BOCFG", 6),
   ("BODELAY", 7), ("ERRINFO", 8)]

/-- A name's entry in a list of names. -/
def lookupName {α : Type} (names : List (String × α)) (word : List Char) : Option α :=
  (names.find? (·.1 == String.ofList word)).map (·.2)

/-- A number that fits the field (R69). -/
def fitted (f : OperandField) (n : Nat) : Except AsmError Nat :=
  if f.fits n then .ok n else .error .operandTooLarge

/-- An operand of the field, written as a number, or by name for a result code or a register (R69). -/
def parseOperand (f : OperandField) (word : List Char) : Except AsmError Nat :=
  match parseNumber word with
  | some n => fitted f n
  | none =>
    match f with
    | .code4 =>
      match lookupName resultCodeNames word with
      | some r => .ok r.toCode4.toNat
      | none => .error .badOperand
    | .index =>
      match lookupName registerNames word with
      | some i => .ok i
      | none => .error .badOperand
    | .imm8 => .error .badOperand
    | .imm16 => .error .badOperand
    | .addr7 => .error .badOperand

/-- A list of byte operands, for the pseudo-instructions. -/
def parseBytes : List (List Char) → Except AsmError (List Byte)
  | [] => .ok []
  | w :: ws =>
    match parseOperand .imm8 w, parseBytes ws with
    | .ok n, .ok bytes => .ok (BitVec.ofNat 8 n :: bytes)
    | .error e, _ => .error e
    | .ok _, .error e => .error e

/-- The line of a command without an operand. -/
def bareLine (i : Instr) (operands : List (List Char)) : Except AsmError (List Instr) :=
  match operands with
  | [] => .ok [i]
  | _ :: _ => .error .wrongOperandCount

/-- The line of a command with one operand of the field. -/
def operandLine (f : OperandField) (build : Nat → Instr) (operands : List (List Char)) :
    Except AsmError (List Instr) :=
  match operands with
  | [w] =>
    match parseOperand f w with
    | .ok n => .ok [build n]
    | .error e => .error e
  | [] => .error .wrongOperandCount
  | _ :: _ :: _ => .error .wrongOperandCount

/-- The line of VALIDATE_SEEDED (R72), or of VALIDATE after its address (R71). -/
def packetLine (first : List Instr) (operands : List (List Char)) : Except AsmError (List Instr) :=
  match parseBytes operands with
  | .ok packet =>
    match validateSeededProgram packet with
    | some program => .ok (first ++ program)
    | none => .error .emptyPacket
  | .error e => .error e

/-- The instructions of a line split into words (R69 to R73). A line with no word, blank or only a comment, stands for no
instruction: R69 says one command per line and nothing of such a line, so this is the model's choice (DESIGN CHOICE, log 9). A PERFORM line
is refused: R73 names it and gives it no expansion, and D35 lists it in the syntax, so what the assembler answers there is the
model's choice too (DESIGN CHOICE, log 9). `perform` is its meaning. -/
def assembleWords : List (List Char) → Except AsmError (List Instr)
  | [] => .ok []
  | m :: ops =>
    match String.ofList m with
    | "NOP" => bareLine .nop ops
    | "CFG_ADDR" => operandLine .addr7 (fun n => .cfgAddr (BitVec.ofNat 7 n)) ops
    | "CFG_BO_BASE" => operandLine .imm16 (fun n => .cfgBoBase (BitVec.ofNat 16 n)) ops
    | "CFG_BO_CAP" => operandLine .imm16 (fun n => .cfgBoCap (BitVec.ofNat 16 n)) ops
    | "CLR_ERR" => bareLine .clrErr ops
    | "CRC_INIT" => bareLine .crcInit ops
    | "CRC_LOAD" => operandLine .imm8 (fun n => .crcLoad (BitVec.ofNat 8 n)) ops
    | "CRC_BYTE" => operandLine .imm8 (fun n => .crcByte (BitVec.ofNat 8 n)) ops
    | "CRC_CHECK" => operandLine .imm8 (fun n => .crcCheck (BitVec.ofNat 8 n)) ops
    | "RT_START" => operandLine .imm8 (fun n => .rtStart (BitVec.ofNat 8 n)) ops
    | "RT_REPORT" => operandLine .code4 (fun n => .rtReport (BitVec.ofNat 4 n)) ops
    | "RT_RETRY" => bareLine .rtRetry ops
    | "RT_ABORT" => bareLine .rtAbort ops
    | "RT_CLEAR" => bareLine .rtClear ops
    | "RD" => operandLine .index (fun n => .regRead (BitVec.ofNat 4 n)) ops
    | "CRC8" =>
      match parseBytes ops with
      | .ok (seed :: data) => .ok (crc8Program seed data)
      | .ok [] => .error .wrongOperandCount
      | .error e => .error e
    | "VALIDATE" =>
      match ops with
      | a :: packet =>
        match parseOperand .addr7 a with
        | .ok n => packetLine [.cfgAddr (BitVec.ofNat 7 n)] packet
        | .error e => .error e
      | [] => .error .wrongOperandCount
    | "VALIDATE_SEEDED" => packetLine [] ops
    | "PERFORM" => .error .hostProcedure
    | _ => .error .unknownMnemonic

/-- The instructions a line of source stands for (R69). -/
def assembleLine (line : String) : Except AsmError (List Instr) :=
  assembleWords (splitWords (dropComment line.toList))

/-- The port operations a line of source stands for (R69, R74). -/
def assembleOps (line : String) : Except AsmError (List HostOp) := (assembleLine line).map (·.map encode)

end Sys2Proof.Machine
end

