-- ==== Sys2Proof/Safety.lean ====
section
/-!
DEFINITION. The terms in which claims speak: legal commands (40_retry.md R75, 60_exceptions.md R118), a run without a command error (00_scope.md R14), the invariants of 10_state.md, the bound of a transaction (R79).
-/
namespace Sys2Proof.Machine

/-- The next state an answer gives, if it gives one. -/
def nextState (a : Answer) : Option State :=
  match a with
  | .next s => some s
  | .fault _ => none
  | .refused _ => none

/-- No command error is recorded: the premise R14 gives a claim. -/
abbrev State.Clean (s : State) : Prop := s.errors.cmdErr = false

/-- Whether the instruction raises no command error in the state (the columns BAD_STATE and RESERVED_CODE of R118). -/
def legalIn (i : Instr) (s : State) : Bool :=
  match i with
  | .nop => true
  | .cfgAddr _ => true
  | .cfgBoBase _ => true
  | .cfgBoCap _ => true
  | .clrErr => true
  | .crcInit => true
  | .crcLoad _ => true
  | .crcByte _ => true
  | .crcCheck _ => true
  | .rtStart _ => s.retryUnit.rtState == .idle
  | .rtReport c => s.retryUnit.rtState == .issue && c.toNat ≤ 8
  | .rtRetry => s.retryUnit.rtState == .wait
  | .rtAbort => s.retryUnit.rtState == .wait
  | .rtClear => s.retryUnit.rtState == .done
  | .regRead _ => true

/-- The RT_ commands (R75). -/
def isRtCommand : Instr → Bool
  | .rtStart _ => true
  | .rtReport _ => true
  | .rtRetry => true
  | .rtAbort => true
  | .rtClear => true
  | .nop => false
  | .cfgAddr _ => false
  | .cfgBoBase _ => false
  | .cfgBoCap _ => false
  | .clrErr => false
  | .crcInit => false
  | .crcLoad _ => false
  | .crcByte _ => false
  | .crcCheck _ => false
  | .regRead _ => false

/-- The CRC unit's commands (R89). -/
def isCrcCommand : Instr → Bool
  | .cfgAddr _ => true
  | .crcInit => true
  | .crcLoad _ => true
  | .crcByte _ => true
  | .crcCheck _ => true
  | .rtStart _ => false
  | .rtReport _ => false
  | .rtRetry => false
  | .rtAbort => false
  | .rtClear => false
  | .nop => false
  | .cfgBoBase _ => false
  | .cfgBoCap _ => false
  | .clrErr => false
  | .regRead _ => false

/-- The retry unit's commands (R75). -/
def isRetryCommand (i : Instr) : Bool :=
  isRtCommand i ||
    match i with
    | .cfgBoBase _ => true
    | .cfgBoCap _ => true
    | _ => false

/-- SEED is the seed of DEV_ADDR (R23); a verdict stands only after a check (R26, R27), and so does the byte it was given
(R28). -/
abbrev CrcUnit.Inv (u : CrcUnit) : Prop :=
  u.seed = seedOf u.devAddr ∧
  (u.chkOk = true → u.chkDone = true) ∧
  (u.chkDone = false → u.chkRcvd = 0x00)

/-- The attempt number within its budget (R31). -/
abbrev RetryUnit.AttemptInv (u : RetryUnit) : Prop :=
  (u.rtState = .issue ∨ u.rtState = .wait → 1 ≤ u.attempt.toNat ∧ u.attempt.toNat ≤ u.maxAtt.toNat) ∧
  (u.rtState = .wait → u.attempt.toNat < u.maxAtt.toNat) ∧
  (u.rtState = .done → u.attempt.toNat ≤ u.maxAtt.toNat) ∧
  (u.rtState = .idle → u.attempt.toNat ≤ u.maxAtt.toNat)

/-- RESULT, EXHAUSTED and ABORTED against the phase (R32, R34, R35, R84): a transient result that ended a transaction ended
it by exhaustion or by abort, and by one of them only. -/
abbrev RetryUnit.OutcomeInv (u : RetryUnit) : Prop :=
  (u.exhausted = true → u.aborted = false ∧ u.attempt = u.maxAtt) ∧
  (u.aborted = true → u.exhausted = false ∧ u.attempt.toNat < u.maxAtt.toNat) ∧
  (u.rtState = .issue ∨ u.rtState = .wait → u.exhausted = false ∧ u.aborted = false) ∧
  (u.rtState = .wait → u.result.classOf = .transient) ∧
  (u.rtState = .issue → if u.attempt = 0x01 then u.result = .ok else u.result.classOf = .transient) ∧
  (u.rtState = .done ∨ u.rtState = .idle →
    (u.result.classOf = .transient ↔ u.exhausted = true ∨ u.aborted = true))

/-- The error record is empty exactly while CMD_ERR = 0 (R38, R116). -/
abbrev ErrorRecord.Inv (e : ErrorRecord) : Prop :=
  (e.cmdErr = false → e.errCause = .none ∧ e.errOpc = 0x00) ∧ (e.cmdErr = true → e.errCause ≠ .none)

/-- What holds of every state that a run reaches. -/
abbrev State.Inv (s : State) : Prop :=
  s.crcUnit.Inv ∧ s.retryUnit.AttemptInv ∧ s.retryUnit.OutcomeInv ∧ s.errors.Inv

/-- R79's bound on the legal RT_ commands that still lead to IDLE. -/
def RetryUnit.commandsLeft (u : RetryUnit) : Nat :=
  match u.rtState with
  | .idle => 0
  | .issue => 2 * (u.maxAtt.toNat - u.attempt.toNat) + 2
  | .wait => 2 * (u.maxAtt.toNat - u.attempt.toNat) + 1
  | .done => 1

/-- How many instructions of the list that `p` picks are accepted, when the list is issued in order from the state. -/
def acceptedCount (p : Instr → Bool) : List Instr → State → Nat
  | [], _ => 0
  | i :: rest, s =>
    match exec i s with
    | .next s' => (if p i && legalIn i s then 1 else 0) + acceptedCount p rest s'
    | _ => 0

/-- Whether the instruction is an RT_REPORT (R79). -/
def isReport (i : Instr) : Bool :=
  match i with
  | .rtReport _ => true
  | _ => false

/-- Whether the instruction is an RT_RETRY (R79). -/
def isRetry (i : Instr) : Bool :=
  match i with
  | .rtRetry => true
  | _ => false

/-- Whether the instruction is an RT_START. -/
def isStart (i : Instr) : Bool :=
  match i with
  | .rtStart _ => true
  | _ => false

end Sys2Proof.Machine
end

