-- ==== Sys2Proof/Certificates/Slice0/Obligations.lean ====
section
/-!
DEFINITION. What is to be proved of the model: the spec's numbered rules, stated over all states and operands.
Where a statement equates the whole next state with an update of the state before, the equation is the instruction's result, its
completion and its frame at once: every element the update does not name is unchanged. The hardware has no memory and no
program counter (R21, R45), so no statement speaks of them.
-/
open Sys2Proof Sys2Proof.Machine

/-! ## Encoding -/

/-- Derived from R62, R64, R65, R74: no bit of an encoding is dropped. -/
def Obligations.EncodeThenDecodeEveryInstruction : Prop :=
  ∀ i : Instr, decodeOp (encode i) = some i

/-- Derived from R62, R63, R64: a word that decodes is the one spelling of what it decodes to. -/
def Obligations.DecodeThenEncodeEveryWord : Prop :=
  ∀ (w : Word) (i : Instr), decodeCommand w = .ok i → encode i = .writeCmd w

/-- Derived from R64: selection by mask and match, at most one row, and the mnemonic under it; a reserved report code is still RT_REPORT
and is rejected by value. -/
def Obligations.DecodeSelectsTheTableRow : Prop :=
  (∀ (r : OpcodeRow) (w : Word), r.selects w = true ↔ w &&& r.mask = r.matchBits) ∧
  (∀ w : Word, (∃ i, decodeCommand w = .ok i) ↔ ∃ r ∈ opcodeRows, r.selects w = true) ∧
  (∀ (w : Word), ∀ r₁ ∈ opcodeRows, ∀ r₂ ∈ opcodeRows, r₁.selects w = true → r₂.selects w = true → r₁ = r₂) ∧
  (∀ (w : Word) (i : Instr), decodeCommand w = .ok i →
    ∀ r ∈ opcodeRows, r.selects w = true → r.mnemonic = i.mnemonic) ∧
  (∀ (c : Code4) (s : State), 9 ≤ c.toNat → s.retryUnit.rtState = .issue →
    decodeCommand (0x21#8 ++ 0#20 ++ c) = .ok (.rtReport c) ∧
    runCommand (0x21#8 ++ 0#20 ++ c) s = .next (cmdError .reservedCode 0x21 s))

/-- Derived from R62, R64 and R69: a few words written out, one at least per family. That the index of REG_READ stands in a
byte of its own is the host's numbering (log 8). -/
def Obligations.WordsOfTheSpecDecode : Prop :=
  decodeCommand 0x00000000 = .ok .nop ∧
  decodeCommand 0x0100000A = .ok (.cfgAddr 0x0A) ∧
  decodeCommand 0x0200000A = .ok (.cfgBoBase 10) ∧
  decodeCommand 0x1200001E = .ok (.crcByte 0x1E) ∧
  decodeCommand 0x13000042 = .ok (.crcCheck 0x42) ∧
  decodeCommand 0x20000003 = .ok (.rtStart 3) ∧
  decodeCommand 0x21000002 = .ok (.rtReport 0x2) ∧
  decodeCommand 0x24000000 = .ok .rtClear ∧
  decodeTableWord 8 0x1 = some (.regRead 0x1)

/-- R66: the three ranges of illegal OPC values, 242 in all, whatever OPND holds; every other OPC has a legal word. -/
def Obligations.UnknownOpcodesAreErrors : Prop :=
  (∀ (opc : Byte) (opnd : BitVec 24) (s : State),
    (0x05 ≤ opc.toNat ∧ opc.toNat ≤ 0x0F) ∨ (0x14 ≤ opc.toNat ∧ opc.toNat ≤ 0x1F) ∨ 0x25 ≤ opc.toNat →
    runCommand (opc ++ opnd) s = .next (cmdError .unknownOpcode opc s)) ∧
  (∀ opc : Byte,
    ¬((0x05 ≤ opc.toNat ∧ opc.toNat ≤ 0x0F) ∨ (0x14 ≤ opc.toNat ∧ opc.toNat ≤ 0x1F) ∨ 0x25 ≤ opc.toNat) →
    ∃ i, decodeCommand (opc ++ 0#24) = .ok i) ∧
  ((List.range 256).filter
    (fun n => (0x05 ≤ n ∧ n ≤ 0x0F) ∨ (0x14 ≤ n ∧ n ≤ 0x1F) ∨ 0x25 ≤ n)).length = 242

/-- R63: the opcode's row fixes the reserved OPND bits; any of them set is RESERVED_BITS and has no other effect. -/
def Obligations.ReservedBitsAreErrors : Prop :=
  (∀ (w : Word) (s : State), ∀ r ∈ opcodeRows,
    w.extractLsb' 24 8 = r.matchBits.extractLsb' 24 8 →
    w.extractLsb' 0 24 &&& r.mask.extractLsb' 0 24 ≠ 0 →
    runCommand w s = .next (cmdError .reservedBits (w.extractLsb' 24 8) s)) ∧
  (∀ (a : Addr7) (s : State),
    runCommand (0x01#8 ++ 0#16 ++ 1#1 ++ a) s = .next (cmdError .reservedBits 0x01 s)) ∧
  (∀ (cause : ErrCause) (opc : Byte) (s : State),
    (cmdError cause opc s).crcUnit = s.crcUnit ∧ (cmdError cause opc s).retryUnit = s.retryUnit ∧
    (cmdError cause opc s).host = s.host)

/-- R68: each of the 2^32 command words either has its command's effect or is one command error, in every state. -/
def Obligations.EveryWordHasOneDefinedEffect : Prop :=
  ∀ (w : Word) (s : State),
    (∃ i t, decodeCommand w = .ok i ∧ exec i s = .next t ∧ runCommand w s = .next t) ∨
    (∃ e, decodeCommand w = .error e ∧ runCommand w s = .next (cmdError (causeOf e) (opcField w) s))

/-- Derived. What a step adds around `exec` is the model's choice (log 1): it takes the oldest operation from the queue. A word that spells no command is the
command error of its opcode; with nothing pending the block stays as it is (R11, log 2). -/
def Obligations.StepRunsTheDecodedInstruction : Prop :=
  (∀ (s : State) (w : Word) (i : Instr) (rest : List HostOp),
    s.host.pending = .writeCmd w :: rest → decodeCommand w = .ok i →
    step s = exec i { s with host := { s.host with pending := rest } }) ∧
  (∀ (s : State) (index : RegIndex) (rest : List HostOp),
    s.host.pending = .readReg index :: rest →
    step s = exec (.regRead index) { s with host := { s.host with pending := rest } }) ∧
  (∀ (s : State) (w : Word) (e : DecodeError) (rest : List HostOp),
    s.host.pending = .writeCmd w :: rest → decodeCommand w = .error e →
    step s = .next (cmdError (causeOf e) (opcField w) { s with host := { s.host with pending := rest } })) ∧
  (∀ (s : State) (op : HostOp) (rest : List HostOp),
    s.host.pending = op :: rest → step s = runOp op { s with host := { s.host with pending := rest } }) ∧
  (∀ s : State, s.host.pending = [] → step s = .next s)

/-! ## Control commands and the read port -/

/-- R108. -/
def Obligations.NopChangesNothing : Prop :=
  (∀ s : State, exec .nop s = .next s) ∧
  (∀ s : State, runCommand 0x00000000 s = exec .nop s) ∧
  (∀ (r : BitVec 24) (s : State), r ≠ 0 →
    runCommand (0x00#8 ++ r) s = .next (cmdError .reservedBits 0x00 s)) ∧
  (∀ s : State, runCommand 0x00000001 s = .next (cmdError .reservedBits 0x00 s))

/-- R109. -/
def Obligations.ClrErrClearsTheRecord : Prop :=
  (∀ s : State, exec .clrErr s =
    .next { s with errors := { cmdErr := false, errCause := .none, errOpc := 0x00 } }) ∧
  (∀ s : State, runCommand 0x04000000 s = exec .clrErr s) ∧
  (∀ (r : BitVec 24) (s : State), r ≠ 0 → s.errors.cmdErr = true → runCommand (0x04#8 ++ r) s = .next s) ∧
  (∀ (r : BitVec 24) (s : State), r ≠ 0 → s.errors.cmdErr = false →
    runCommand (0x04#8 ++ r) s =
      .next { s with errors := { cmdErr := true, errCause := .reservedBits, errOpc := 0x04 } }) ∧
  (∀ s : State, s.Clean → ∃ t, runCommand 0xFF000000 s = .next t ∧
    readRegister t 0x8 = 0x0001FF01 ∧
    ∃ u, exec .clrErr t = .next u ∧ readRegister u 0x8 = 0x00000000)

/-- Derived from R111: a read returns the register's word, computed from the current state, and changes nothing inside the
block. That the model keeps the returned words as a list, newest first, is its own choice (log 3). -/
def Obligations.RegReadAnswersTheWord : Prop :=
  (∀ (i : RegIndex) (s : State), exec (.regRead i) s =
    .next { s with host := { s.host with answers := readRegister s i :: s.host.answers } }) ∧
  (∀ (i : RegIndex) (s : State), ∃ t, execAll [.regRead i, .regRead i] s = .next t ∧
    t.host.answers = readRegister s i :: readRegister s i :: s.host.answers) ∧
  (∀ (i j : RegIndex) (s t : State), exec (.regRead i) s = .next t → readRegister t j = readRegister s j)

/-- Derived from R40: the read map, and that a read changes nothing inside the block. The layouts it refers to are stated field by field in StatusWordLayout and RegisterWordLayouts. -/
def Obligations.ReadMapGivesEachIndexItsWord : Prop :=
  (∀ s : State,
    readRegister s 0x0 = 0x43523801 ∧ readRegister s 0x1 = statusWord s ∧ readRegister s 0x2 = crcRegWord s ∧
    readRegister s 0x3 = addrRegWord s ∧ readRegister s 0x4 = countRegWord s ∧ readRegister s 0x5 = rtRegWord s ∧
    readRegister s 0x6 = boCfgWord s ∧ readRegister s 0x7 = boDelayWord s ∧ readRegister s 0x8 = errInfoWord s) ∧
  (∀ (i : RegIndex) (s : State), 9 ≤ i.toNat → readRegister s i = 0x00000000) ∧
  (∀ (i : RegIndex) (s t : State), exec (.regRead i) s = .next t →
    t.crcUnit = s.crcUnit ∧ t.retryUnit = s.retryUnit ∧ t.errors = s.errors)

/-- R41: every field of STATUS in its bits, the reserved bits 0, the reset value, and the number each value of RT_STATE,
RESULT and ERR_CAUSE stands for in its field, as the tables of R29, R33 and R116 give it. -/
def Obligations.StatusWordLayout : Prop :=
  (∀ s : State,
    (statusWord s).extractLsb' 0 2 = s.retryUnit.rtState.toBits ∧
    ((statusWord s).getLsbD 2 = true ↔ s.retryUnit.rtState = .issue) ∧
    ((statusWord s).getLsbD 3 = true ↔ s.retryUnit.rtState = .wait) ∧
    ((statusWord s).getLsbD 4 = true ↔ s.retryUnit.rtState = .done) ∧
    (statusWord s).getLsbD 5 = s.retryUnit.exhausted ∧
    (statusWord s).getLsbD 6 = s.retryUnit.aborted ∧
    (statusWord s).getLsbD 7 = false ∧
    (statusWord s).extractLsb' 8 4 = s.retryUnit.result.toCode4 ∧
    (statusWord s).getLsbD 12 = s.crcUnit.chkDone ∧
    (statusWord s).getLsbD 13 = s.crcUnit.chkOk ∧
    (statusWord s).getLsbD 14 = (s.crcUnit.chkDone && !s.crcUnit.chkOk) ∧
    (statusWord s).getLsbD 15 = s.errors.cmdErr ∧
    (statusWord s).extractLsb' 16 4 = s.errors.errCause.toBits ∧
    (statusWord s).extractLsb' 20 12 = 0) ∧
  statusWord State.reset = 0x00000000 ∧
  (RtState.idle.toBits = 0 ∧ RtState.issue.toBits = 1 ∧ RtState.wait.toBits = 2 ∧ RtState.done.toBits = 3) ∧
  (ResultCode.ok.toCode4 = 0x0 ∧ ResultCode.busOpen.toCode4 = 0x1 ∧ ResultCode.busIo.toCode4 = 0x2 ∧
    ResultCode.stillMeasuring.toCode4 = 0x3 ∧ ResultCode.invalidArgument.toCode4 = 0x4 ∧
    ResultCode.bufferTooLarge.toCode4 = 0x5 ∧ ResultCode.checksum.toCode4 = 0x6 ∧
    ResultCode.deviceMismatch.toCode4 = 0x7 ∧ ResultCode.coeffRead.toCode4 = 0x8) ∧
  (ErrCause.none.toBits = 0x0 ∧ ErrCause.unknownOpcode.toBits = 0x1 ∧ ErrCause.reservedBits.toBits = 0x2 ∧
    ErrCause.badState.toBits = 0x3 ∧ ErrCause.reservedCode.toBits = 0x4)

/-- R42: every field of the other register words in its bits, the unnamed bits 0, and the reset values. -/
def Obligations.RegisterWordLayouts : Prop :=
  (∀ s : State,
    ((crcRegWord s).extractLsb' 0 8 = s.crcUnit.crc ∧ (crcRegWord s).extractLsb' 8 8 = s.crcUnit.seed ∧
      (crcRegWord s).extractLsb' 16 8 = s.crcUnit.chkRcvd ∧ (crcRegWord s).extractLsb' 24 8 = 0) ∧
    ((addrRegWord s).extractLsb' 0 7 = s.crcUnit.devAddr ∧ (addrRegWord s).getLsbD 7 = false ∧
      (addrRegWord s).extractLsb' 8 8 = s.crcUnit.devAddr ++ 1#1 ∧ (addrRegWord s).extractLsb' 16 16 = 0) ∧
    (countRegWord s).toNat = s.crcUnit.count.toNat ∧
    ((rtRegWord s).extractLsb' 0 8 = s.retryUnit.attempt ∧ (rtRegWord s).extractLsb' 8 8 = s.retryUnit.maxAtt ∧
      (rtRegWord s).extractLsb' 16 4 = s.retryUnit.result.toCode4 ∧ (rtRegWord s).extractLsb' 20 12 = 0) ∧
    ((boCfgWord s).extractLsb' 0 16 = s.retryUnit.boBase ∧ (boCfgWord s).extractLsb' 16 16 = s.retryUnit.boCap) ∧
    (boDelayWord s).toNat = s.retryUnit.backoff.toNat ∧
    ((errInfoWord s).extractLsb' 0 4 = s.errors.errCause.toBits ∧ (errInfoWord s).extractLsb' 4 4 = 0 ∧
      (errInfoWord s).extractLsb' 8 8 = s.errors.errOpc ∧ (errInfoWord s).getLsbD 16 = s.errors.cmdErr ∧
      (errInfoWord s).extractLsb' 17 15 = 0) ∧
    readRegister s 0x0 = 0x43523801) ∧
  crcRegWord State.reset = 0x00000700 ∧ addrRegWord State.reset = 0x00000100 ∧
  countRegWord State.reset = 0x00000000 ∧ rtRegWord State.reset = 0x00000000 ∧
  boCfgWord State.reset = 0xFFFF0001 ∧ boDelayWord State.reset = 0x00000000 ∧
  errInfoWord State.reset = 0x00000000

/-! ## The CRC unit -/

/-- R95: the loop written with Mathlib's iterate and the bit t[7], and the rule's example values. -/
def Obligations.CrcStepIsEightShifts : Prop :=
  (∀ c b : Byte, crcStep c b =
    (fun t : Byte => if t.getLsbD 7 = true then (t <<< 1) ^^^ 0x07 else t <<< 1)^[8] (c ^^^ b)) ∧
  (∀ c b : Byte, crcStep c b = crcMap (c ^^^ b)) ∧
  crcStep 0x00 0x01 = 0x07 ∧ crcStep 0x00 0x80 = 0x89 ∧ crcStep 0x00 0xFF = 0xF3 ∧
  crcStep 0x00 0x15 = 0x6B ∧ crcStep 0xFF 0xFF = 0x00

/-- R92, R70: crc8 is the left fold of crc_step, and what CRC_LOAD and then CRC_BYTE for each byte leave in CRC. -/
def Obligations.Crc8IsTheFoldTheCommandsCompute : Prop :=
  (∀ (seed : Byte) (data : List Byte), crc8 seed data = data.foldl crcStep seed) ∧
  (∀ (seed : Byte) (data : List Byte), crc8Program seed data = .crcLoad seed :: data.map .crcByte) ∧
  (∀ (seed : Byte) (data : List Byte) (s : State), execAll (crc8Program seed data) s =
    .next { s with crcUnit := { s.crcUnit with
      crc := crc8 seed data, count := BitVec.ofNat 16 (min data.length 0xFFFF),
      chkDone := false, chkOk := false, chkRcvd := 0x00 } }) ∧
  (∀ s : State, (readRegister s 0x2).extractLsb' 0 8 = s.crcUnit.crc)

/-- R93. -/
def Obligations.Crc8Laws : Prop :=
  (∀ seed : Byte, crc8 seed [] = seed) ∧
  (∀ (seed : Byte) (a b : List Byte), crc8 seed (a ++ b) = crc8 (crc8 seed a) b) ∧
  (∀ c₁ c₂ b₁ b₂ : Byte, crcStep (c₁ ^^^ c₂) (b₁ ^^^ b₂) = crcStep c₁ b₁ ^^^ crcStep c₂ b₂) ∧
  (∀ c b : Byte, crcStep c b = crcMap (c ^^^ b)) ∧
  (∀ x y : Byte, crcMap (x ^^^ y) = crcMap x ^^^ crcMap y) ∧
  Function.Bijective crcMap

/-- R96, R97: the seed is the CRC of the read-address byte, so the checksum covers that byte. -/
def Obligations.SeedCoversTheReadAddressByte : Prop :=
  (∀ a : Addr7, seedOf a = crc8 0x00 [a ++ 1#1] ∧ seedOf a = crcStep 0x00 (a ++ 1#1)) ∧
  (seedOf 0x0A = 0x6B ∧ seedOf 0x00 = 0x07 ∧ seedOf 0x7F = 0xF3) ∧
  (∀ (payload : List Byte) (check : Byte) (a : Addr7),
    validate (payload ++ [check]) a = some (crc8 0x00 ((a ++ 1#1) :: payload) == check))

/-- R71, with R94's function: the expansion of VALIDATE leaves validate's value in CHK_OK, STATUS bit 13; the assembler
refuses a packet of no bytes. -/
def Obligations.ValidateLeavesItsVerdictInChkOk : Prop :=
  (∀ (payload : List Byte) (check : Byte) (a : Addr7),
    validate (payload ++ [check]) a = some (crc8 (seedOf a) payload == check)) ∧
  (∀ (payload : List Byte) (check : Byte) (a : Addr7),
    validateProgram a (payload ++ [check]) =
      some (.cfgAddr a :: .crcInit :: (payload.map .crcByte ++ [.crcCheck check]))) ∧
  (∀ (payload : List Byte) (check : Byte) (a : Addr7) (s : State), ∃ program t,
    validateProgram a (payload ++ [check]) = some program ∧ execAll program s = .next t ∧
    validate (payload ++ [check]) a = some t.crcUnit.chkOk ∧
    (readRegister t 0x1).getLsbD 13 = t.crcUnit.chkOk ∧ t.crcUnit.chkDone = true) ∧
  (∀ a : Addr7, validateProgram a [] = none ∧ validate [] a = none ∧
    assembleLine "VALIDATE 0x0A" = .error .emptyPacket)

/-- R72: the expansion without the address uses the SEED configured before, for one packet after another. -/
def Obligations.ValidateSeededUsesTheConfiguredSeed : Prop :=
  (∀ (a : Addr7) (packet : List Byte),
    validateProgram a packet = (validateSeededProgram packet).map (.cfgAddr a :: ·)) ∧
  (∀ (payload : List Byte) (check : Byte) (s : State), s.crcUnit.Inv → ∃ program t,
    validateSeededProgram (payload ++ [check]) = some program ∧ execAll program s = .next t ∧
    validate (payload ++ [check]) s.crcUnit.devAddr = some t.crcUnit.chkOk ∧
    t.crcUnit.seed = s.crcUnit.seed ∧ t.crcUnit.devAddr = s.crcUnit.devAddr)

/-- R105: the residue law, in the function and in the command; the verdict comes only from CRC_CHECK. -/
def Obligations.ResidueOfAGoodPacketIsZero : Prop :=
  (∀ (seed : Byte) (data : List Byte), crc8 seed (data ++ [crc8 seed data]) = 0x00) ∧
  (∀ s : State, ∃ t, exec (.crcByte s.crcUnit.crc) s = .next t ∧ t.crcUnit.crc = 0x00 ∧
    t.crcUnit.chkDone = s.crcUnit.chkDone ∧ t.crcUnit.chkOk = s.crcUnit.chkOk)

/-- R104: what an error in one payload byte does to the CRC, and that any one flipped bit is detected. -/
def Obligations.SingleBitErrorsAreDetected : Prop :=
  (∀ (seed x e : Byte) (before after : List Byte),
    crc8 seed (before ++ (x ^^^ e) :: after) =
      crc8 seed (before ++ x :: after) ^^^ crcMap^[after.length + 1] e) ∧
  (∀ (k : Nat) (e : Byte), e ≠ 0x00 → crcMap^[k] e ≠ 0x00) ∧
  (∀ (a : Addr7) (before after : List Byte) (x : Byte) (bit : Nat), bit < 8 →
    validate (before ++ x :: after) a = some true →
    validate (before ++ (x ^^^ (1#8 <<< bit)) :: after) a = some false)

/-- R98. -/
def Obligations.CfgAddrSetsAddressAndSeed : Prop :=
  (∀ (a : Addr7) (s : State), exec (.cfgAddr a) s =
    .next { s with crcUnit := { s.crcUnit with devAddr := a, seed := seedOf a } }) ∧
  (∀ (a : Addr7) (s : State), runCommand (0x01#8 ++ 0#17 ++ a) s = exec (.cfgAddr a) s) ∧
  (∀ (r : BitVec 17) (a : Addr7) (s : State), r ≠ 0 →
    runCommand (0x01#8 ++ r ++ a) s = .next (cmdError .reservedBits 0x01 s)) ∧
  (seedOf 0x00 = 0x07 ∧ seedOf 0x7F = 0xF3) ∧
  (∀ s : State, s.crcUnit.Inv → exec (.cfgAddr s.crcUnit.devAddr) s = .next s) ∧
  (∀ s : State, ∃ t, runCommand 0x0100000A s = .next t ∧
    t.crcUnit.devAddr = 0x0A ∧ t.crcUnit.seed = 0x6B ∧ readRegister t 0x3 = 0x0000150A)

/-- R99. -/
def Obligations.CrcInitBeginsFromTheSeed : Prop :=
  (∀ s : State, exec .crcInit s =
    .next { s with crcUnit := { s.crcUnit with
      crc := s.crcUnit.seed, count := 0, chkDone := false, chkOk := false, chkRcvd := 0x00 } }) ∧
  (∀ s : State, runCommand 0x10000000 s = exec .crcInit s) ∧
  (∀ (r : BitVec 24) (s : State), r ≠ 0 →
    runCommand (0x10#8 ++ r) s = .next (cmdError .reservedBits 0x10 s)) ∧
  (∀ s : State, execAll [.crcInit, .crcInit] s = exec .crcInit s) ∧
  (∃ t, exec .crcInit State.reset = .next t ∧ t.crcUnit.crc = 0x07) ∧
  (∀ s : State, ∃ t, execAll [.cfgAddr 0x0A, .crcInit] s = .next t ∧
    t.crcUnit.crc = 0x6B ∧ readRegister t 0x2 = 0x00006B6B)

/-- R100. -/
def Obligations.CrcLoadBeginsFromItsOperand : Prop :=
  (∀ (b : Byte) (s : State), exec (.crcLoad b) s =
    .next { s with crcUnit := { s.crcUnit with
      crc := b, count := 0, chkDone := false, chkOk := false, chkRcvd := 0x00 } }) ∧
  (∀ (b : Byte) (s : State), runCommand (0x11#8 ++ 0#16 ++ b) s = exec (.crcLoad b) s) ∧
  (∀ (r : BitVec 16) (b : Byte) (s : State), r ≠ 0 →
    runCommand (0x11#8 ++ r ++ b) s = .next (cmdError .reservedBits 0x11 s)) ∧
  (∀ s : State, exec (.crcLoad s.crcUnit.seed) s = exec .crcInit s) ∧
  (∀ (a : Addr7) (s : State), ∃ t, execAll [.crcLoad 0x00, .crcByte (a ++ 1#1)] s = .next t ∧
    t.crcUnit.crc = seedOf a) ∧
  (∀ s : State, ∃ t, runCommand 0x1100004A s = .next t ∧ t.crcUnit.crc = 0x4A)

/-- R101. -/
def Obligations.CrcByteAbsorbsOneByte : Prop :=
  (∀ (b : Byte) (s : State), exec (.crcByte b) s =
    .next { s with crcUnit := { s.crcUnit with
      crc := crcStep s.crcUnit.crc b,
      count := BitVec.ofNat 16 (min (s.crcUnit.count.toNat + 1) 0xFFFF) } }) ∧
  (∀ (b : Byte) (s : State), runCommand (0x12#8 ++ 0#16 ++ b) s = exec (.crcByte b) s) ∧
  (∀ (r : BitVec 16) (b : Byte) (s : State), r ≠ 0 →
    runCommand (0x12#8 ++ r ++ b) s = .next (cmdError .reservedBits 0x12 s)) ∧
  (∀ c : Byte, crcStep c c = 0x00) ∧
  (∀ (b : Byte) (s : State), s.crcUnit.count = 0xFFFF → ∃ t, exec (.crcByte b) s = .next t ∧
    t.crcUnit.count = 0xFFFF ∧ t.crcUnit.crc = crcStep s.crcUnit.crc b) ∧
  (∀ s : State, s.crcUnit.crc = 0x6B → s.crcUnit.count = 0 → ∃ t, runCommand 0x1200001E s = .next t ∧
    t.crcUnit.crc = 0x4C ∧ t.crcUnit.count = 1)

/-- R102. -/
def Obligations.CrcCheckComparesTheChecksum : Prop :=
  (∀ (b : Byte) (s : State), exec (.crcCheck b) s =
    .next { s with crcUnit := { s.crcUnit with
      chkRcvd := b, chkDone := true, chkOk := decide (s.crcUnit.crc = b) } }) ∧
  (∀ (b : Byte) (s : State), runCommand (0x13#8 ++ 0#16 ++ b) s = exec (.crcCheck b) s) ∧
  (∀ (r : BitVec 16) (b : Byte) (s : State), r ≠ 0 →
    runCommand (0x13#8 ++ r ++ b) s = .next (cmdError .reservedBits 0x13 s)) ∧
  (∀ (b : Byte) (s : State), ∃ t, exec (.crcCheck b) s = .next t ∧
    chkFail t.crcUnit = !t.crcUnit.chkOk ∧ t.errors = s.errors) ∧
  (∀ (b b' : Byte) (s : State), execAll [.crcCheck b, .crcCheck b'] s = exec (.crcCheck b') s) ∧
  (∀ s : State, ∃ t, exec .crcInit s = .next t ∧ t.crcUnit.chkDone = false ∧ t.crcUnit.chkOk = false) ∧
  (∀ s : State, s.crcUnit.crc = 0x42 →
    (∃ t, runCommand 0x13000042 s = .next t ∧ t.crcUnit.chkOk = true ∧
      (readRegister t 0x1).extractLsb' 12 3 = 0b011#3) ∧
    (∃ t, runCommand 0x13000043 s = .next t ∧ chkFail t.crcUnit = true ∧
      (readRegister t 0x1).extractLsb' 12 3 = 0b101#3))

/-- R139. -/
def Obligations.AddressChangeKeepsThePacket : Prop :=
  (∀ (a : Addr7) (before after : List Byte) (check : Byte) (s : State), ∃ t,
    execAll (.crcInit :: (before.map .crcByte ++ .cfgAddr a :: (after.map .crcByte ++ [.crcCheck check]))) s = .next t ∧
    t.crcUnit.seed = seedOf a ∧ t.crcUnit.crc = crc8 s.crcUnit.seed (before ++ after) ∧
    t.crcUnit.chkOk = decide (crc8 s.crcUnit.seed (before ++ after) = check)) ∧
  (∀ (a : Addr7) (s : State), ∃ t, execAll [.cfgAddr a, .crcInit] s = .next t ∧ t.crcUnit.crc = seedOf a)

/-! ## The retry unit -/

/-- R78. -/
def Obligations.ClassificationIsFixedPerCode : Prop :=
  ((ResultCode.ofCode4 0x0).map ResultCode.classOf = some .success ∧
    (ResultCode.ofCode4 0x1).map ResultCode.classOf = some .transient ∧
    (ResultCode.ofCode4 0x2).map ResultCode.classOf = some .transient ∧
    (ResultCode.ofCode4 0x3).map ResultCode.classOf = some .transient ∧
    (ResultCode.ofCode4 0x4).map ResultCode.classOf = some .fatal ∧
    (ResultCode.ofCode4 0x5).map ResultCode.classOf = some .fatal ∧
    (ResultCode.ofCode4 0x6).map ResultCode.classOf = some .fatal ∧
    (ResultCode.ofCode4 0x7).map ResultCode.classOf = some .fatal ∧
    (ResultCode.ofCode4 0x8).map ResultCode.classOf = some .fatal) ∧
  (∀ r : ResultCode, ResultCode.ofCode4 r.toCode4 = some r) ∧
  (∀ c : Code4, 9 ≤ c.toNat → ResultCode.ofCode4 c = none) ∧
  (∀ (c : Code4) (s : State), 9 ≤ c.toNat → s.retryUnit.rtState = .issue →
    exec (.rtReport c) s = .next (cmdError .reservedCode 0x21 s))

/-- R80: the exact form, the shift form bit for bit, the corner values, and when the value is published. -/
def Obligations.BackoffLaw : Prop :=
  (∀ (base cap : Half) (k : Nat), 1 ≤ k → k ≤ 254 →
    (backoffAt base cap k).toNat = min (base.toNat * 2 ^ (k - 1)) cap.toNat) ∧
  (∀ (base cap : Half) (k : Nat), 1 ≤ k → k ≤ 254 → backoffAt base cap k = backoffByShift base cap k) ∧
  (∀ (base cap : Half) (k : Nat), 1 ≤ k → k ≤ 253 →
    (backoffAt base cap (k + 1)).toNat = min (2 * (backoffAt base cap k).toNat) cap.toNat) ∧
  (∀ (base cap : Half) (k : Nat), 1 ≤ k → k ≤ 254 → cap.toNat < base.toNat → backoffAt base cap k = cap) ∧
  (∀ (base : Half) (k : Nat), 1 ≤ k → k ≤ 254 → backoffAt base 0 k = 0) ∧
  (∀ (s : State) (r : ResultCode), s.retryUnit.rtState = .issue → r.classOf = .transient →
    1 ≤ s.retryUnit.attempt.toNat → s.retryUnit.attempt.toNat < s.retryUnit.maxAtt.toNat →
    ∃ t, exec (.rtReport r.toCode4) s = .next t ∧
    t.retryUnit.backoff = backoffAt s.retryUnit.boBase s.retryUnit.boCap s.retryUnit.attempt.toNat)

/-- R75: each RT_ command outside its one state is BAD_STATE and changes nothing else; the two configuration commands are
legal in every state. -/
def Obligations.RtCommandsAreLegalInOneState : Prop :=
  (∀ (m : Byte) (s : State), s.retryUnit.rtState ≠ .idle →
    exec (.rtStart m) s = .next (cmdError .badState 0x20 s)) ∧
  (∀ (c : Code4) (s : State), s.retryUnit.rtState ≠ .issue →
    exec (.rtReport c) s = .next (cmdError .badState 0x21 s)) ∧
  (∀ s : State, s.retryUnit.rtState ≠ .wait → exec .rtRetry s = .next (cmdError .badState 0x22 s)) ∧
  (∀ s : State, s.retryUnit.rtState ≠ .wait → exec .rtAbort s = .next (cmdError .badState 0x23 s)) ∧
  (∀ s : State, s.retryUnit.rtState ≠ .done → exec .rtClear s = .next (cmdError .badState 0x24 s)) ∧
  (∀ (m : Byte) (s : State), legalIn (.rtStart m) s = true ↔ s.retryUnit.rtState = .idle) ∧
  (∀ (r : ResultCode) (s : State), legalIn (.rtReport r.toCode4) s = true ↔ s.retryUnit.rtState = .issue) ∧
  (∀ s : State, legalIn .rtRetry s = true ↔ s.retryUnit.rtState = .wait) ∧
  (∀ s : State, legalIn .rtAbort s = true ↔ s.retryUnit.rtState = .wait) ∧
  (∀ s : State, legalIn .rtClear s = true ↔ s.retryUnit.rtState = .done) ∧
  (∀ (v : Half) (s : State), ∃ t, exec (.cfgBoBase v) s = .next t ∧ t.errors = s.errors) ∧
  (∀ (v : Half) (s : State), ∃ t, exec (.cfgBoCap v) s = .next t ∧ t.errors = s.errors) ∧
  (∀ (opc : Byte) (s : State), (cmdError .badState opc s).crcUnit = s.crcUnit ∧
    (cmdError .badState opc s).retryUnit = s.retryUnit ∧ (cmdError .badState opc s).host = s.host)

/-- R81. -/
def Obligations.RtStartBeginsATransaction : Prop :=
  (∀ (m : Byte) (s : State), s.retryUnit.rtState = .idle → m ≠ 0x00 → exec (.rtStart m) s =
    .next { s with retryUnit := { s.retryUnit with
      maxAtt := m, exhausted := false, aborted := false, backoff := 0x0000,
      result := .ok, attempt := 0x01, rtState := .issue } }) ∧
  (∀ s : State, s.retryUnit.rtState = .idle → exec (.rtStart 0x00) s =
    .next { s with retryUnit := { s.retryUnit with
      maxAtt := 0x00, exhausted := false, aborted := false, backoff := 0x0000,
      result := .invalidArgument, attempt := 0x00, rtState := .done } }) ∧
  (∀ (m : Byte) (s : State), s.retryUnit.rtState ≠ .idle →
    exec (.rtStart m) s = .next (cmdError .badState 0x20 s)) ∧
  (∀ (m : Byte) (s : State), runCommand (0x20#8 ++ 0#16 ++ m) s = exec (.rtStart m) s) ∧
  (∀ (r : BitVec 16) (m : Byte) (s : State), r ≠ 0 →
    runCommand (0x20#8 ++ r ++ m) s = .next (cmdError .reservedBits 0x20 s)) ∧
  (∀ (r : ResultCode) (s : State), s.retryUnit.rtState = .idle → ∃ t,
    execAll [.rtStart 0x01, .rtReport r.toCode4] s = .next t ∧ t.retryUnit.rtState = .done) ∧
  (∃ t, runCommand 0x20000003 State.reset = .next t ∧ t.retryUnit.rtState = .issue ∧
    t.retryUnit.attempt = 1 ∧ t.retryUnit.maxAtt = 3 ∧ readRegister t 0x1 = 0x00000005)

/-- R82, the effect by class, the two errors, the encoding, the corner cases and the example. -/
def Obligations.RtReportTakesTheOutcome : Prop :=
  (∀ (r : ResultCode) (s : State), s.retryUnit.rtState = .issue → r.classOf ≠ .transient →
    exec (.rtReport r.toCode4) s =
      .next { s with retryUnit := { s.retryUnit with result := r, rtState := .done } }) ∧
  (∀ (r : ResultCode) (s : State), s.retryUnit.rtState = .issue → r.classOf = .transient →
    1 ≤ s.retryUnit.attempt.toNat → s.retryUnit.attempt.toNat < s.retryUnit.maxAtt.toNat →
    exec (.rtReport r.toCode4) s = .next { s with retryUnit := { s.retryUnit with
      result := r, rtState := .wait,
      backoff := backoffAt s.retryUnit.boBase s.retryUnit.boCap s.retryUnit.attempt.toNat } }) ∧
  (∀ (r : ResultCode) (s : State), s.retryUnit.rtState = .issue → r.classOf = .transient →
    ¬ s.retryUnit.attempt.toNat < s.retryUnit.maxAtt.toNat →
    exec (.rtReport r.toCode4) s = .next { s with retryUnit := { s.retryUnit with
      result := r, rtState := .done, exhausted := true } }) ∧
  (∀ (c : Code4) (s : State), s.retryUnit.rtState ≠ .issue →
    exec (.rtReport c) s = .next (cmdError .badState 0x21 s)) ∧
  (∀ (c : Code4) (s : State), s.retryUnit.rtState = .issue → 9 ≤ c.toNat →
    exec (.rtReport c) s = .next (cmdError .reservedCode 0x21 s)) ∧
  (∀ (c : Code4) (s : State), runCommand (0x21#8 ++ 0#20 ++ c) s = exec (.rtReport c) s) ∧
  (∀ (r : BitVec 20) (c : Code4) (s : State), r ≠ 0 →
    runCommand (0x21#8 ++ r ++ c) s = .next (cmdError .reservedBits 0x21 s)) ∧
  (∀ (r : ResultCode) (s : State), s.retryUnit.rtState = .idle → r.classOf = .transient → ∃ t,
    execAll [.rtStart 0x01, .rtReport r.toCode4] s = .next t ∧ t.retryUnit.rtState = .done ∧
    t.retryUnit.exhausted = true ∧ t.retryUnit.backoff = 0) ∧
  (∀ (m : Byte) (r : ResultCode) (s : State), s.retryUnit.rtState = .idle → m ≠ 0 → r.classOf = .fatal → ∃ t,
    execAll [.rtStart m, .rtReport r.toCode4] s = .next t ∧ t.retryUnit.rtState = .done ∧
    t.retryUnit.attempt = 1 ∧ t.retryUnit.result = r) ∧
  ResultCode.checksum.classOf = .fatal ∧
  (∀ s : State, s.Inv → s.retryUnit.rtState = .issue → ∃ t, exec (.rtReport 0x0) s = .next t ∧
    t.retryUnit.result = .ok ∧ t.retryUnit.exhausted = false ∧ t.retryUnit.rtState = .done) ∧
  (∃ t, execAll [.rtStart 3, .rtReport 0x2] State.reset = .next t ∧ t.retryUnit.rtState = .wait ∧
    t.retryUnit.result = .busIo ∧ t.retryUnit.backoff = 1 ∧ readRegister t 0x1 = 0x0000020A)

/-- R83. ATTEMPT < MAXATT is R31's invariant of WAIT, which StepKeepsTheInvariants states. -/
def Obligations.RtRetryBeginsTheNextAttempt : Prop :=
  (∀ s : State, s.retryUnit.rtState = .wait → s.retryUnit.attempt.toNat < s.retryUnit.maxAtt.toNat → ∃ next : Byte,
    next.toNat = s.retryUnit.attempt.toNat + 1 ∧
    exec .rtRetry s = .next { s with retryUnit := { s.retryUnit with attempt := next, rtState := .issue } }) ∧
  (∀ s : State, s.retryUnit.rtState ≠ .wait → exec .rtRetry s = .next (cmdError .badState 0x22 s)) ∧
  (∀ s : State, runCommand 0x22000000 s = exec .rtRetry s) ∧
  (∀ (r : BitVec 24) (s : State), r ≠ 0 →
    runCommand (0x22#8 ++ r) s = .next (cmdError .reservedBits 0x22 s)) ∧
  (∃ t, execAll [.rtStart 3, .rtReport 0x2, .rtRetry] State.reset = .next t ∧
    t.retryUnit.attempt = 2 ∧ readRegister t 0x1 = 0x00000205)

/-- R84. -/
def Obligations.RtAbortEndsTheTransaction : Prop :=
  (∀ s : State, s.retryUnit.rtState = .wait → exec .rtAbort s =
    .next { s with retryUnit := { s.retryUnit with aborted := true, rtState := .done } }) ∧
  (∀ s : State, s.retryUnit.rtState ≠ .wait → exec .rtAbort s = .next (cmdError .badState 0x23 s)) ∧
  (∀ s : State, runCommand 0x23000000 s = exec .rtAbort s) ∧
  (∀ (r : BitVec 24) (s : State), r ≠ 0 →
    runCommand (0x23#8 ++ r) s = .next (cmdError .reservedBits 0x23 s)) ∧
  (∀ s : State, s.Inv → s.retryUnit.rtState = .wait → ∃ t, exec .rtAbort s = .next t ∧
    t.retryUnit.exhausted = false ∧ t.retryUnit.result.classOf = .transient) ∧
  (∃ t, execAll [.rtStart 3, .rtReport 0x2, .rtRetry, .rtReport 0x3, .rtAbort] State.reset = .next t ∧
    readRegister t 0x1 = 0x00000353)

/-- R85. -/
def Obligations.RtClearAcknowledges : Prop :=
  (∀ s : State, s.retryUnit.rtState = .done → exec .rtClear s =
    .next { s with retryUnit := { s.retryUnit with rtState := .idle } }) ∧
  (∀ s : State, s.retryUnit.rtState ≠ .done → exec .rtClear s = .next (cmdError .badState 0x24 s)) ∧
  (∀ s : State, runCommand 0x24000000 s = exec .rtClear s) ∧
  (∀ (r : BitVec 24) (s : State), r ≠ 0 →
    runCommand (0x24#8 ++ r) s = .next (cmdError .reservedBits 0x24 s)) ∧
  (∀ s : State, s.retryUnit.rtState = .done → ∃ t, exec .rtClear s = .next t ∧
    exec .rtClear t = .next (cmdError .badState 0x24 t)) ∧
  (∃ t, execAll [.rtStart 3, .rtReport 0x2, .rtRetry, .rtReport 0x3, .rtAbort, .rtClear] State.reset = .next t ∧
    readRegister t 0x1 = 0x00000340)

/-- R86. -/
def Obligations.CfgBoBaseSetsTheBase : Prop :=
  (∀ (v : Half) (s : State), exec (.cfgBoBase v) s =
    .next { s with retryUnit := { s.retryUnit with boBase := v } }) ∧
  (∀ (v : Half) (s : State), runCommand (0x02#8 ++ 0#8 ++ v) s = exec (.cfgBoBase v) s) ∧
  (∀ (r : Byte) (v : Half) (s : State), r ≠ 0 →
    runCommand (0x02#8 ++ r ++ v) s = .next (cmdError .reservedBits 0x02 s)) ∧
  (∀ (cap : Half) (k : Nat), 1 ≤ k → k ≤ 254 → backoffAt 0 cap k = 0) ∧
  (∀ (v : Half) (s : State) (r : ResultCode), s.retryUnit.rtState = .issue → r.classOf = .transient →
    1 ≤ s.retryUnit.attempt.toNat → s.retryUnit.attempt.toNat < s.retryUnit.maxAtt.toNat → ∃ t,
    execAll [.cfgBoBase v, .rtReport r.toCode4] s = .next t ∧
    t.retryUnit.backoff = backoffAt v s.retryUnit.boCap s.retryUnit.attempt.toNat) ∧
  (∃ t, runCommand 0x0200000A State.reset = .next t ∧ readRegister t 0x6 = 0xFFFF000A)

/-- R87. -/
def Obligations.CfgBoCapSetsTheCap : Prop :=
  (∀ (v : Half) (s : State), exec (.cfgBoCap v) s =
    .next { s with retryUnit := { s.retryUnit with boCap := v } }) ∧
  (∀ (v : Half) (s : State), runCommand (0x03#8 ++ 0#8 ++ v) s = exec (.cfgBoCap v) s) ∧
  (∀ (r : Byte) (v : Half) (s : State), r ≠ 0 →
    runCommand (0x03#8 ++ r ++ v) s = .next (cmdError .reservedBits 0x03 s)) ∧
  (∀ (base : Half) (k : Nat), 1 ≤ k → k ≤ 254 → backoffAt base 0 k = 0) ∧
  (∀ (base cap : Half) (k : Nat), 1 ≤ k → k ≤ 254 → cap.toNat < base.toNat → backoffAt base cap k = cap) ∧
  (∃ t, execAll [.cfgBoBase 10, .cfgBoCap 25] State.reset = .next t ∧
    [1, 2, 3, 4].map (backoffAt t.retryUnit.boBase t.retryUnit.boCap) = [10, 20, 25, 25])

/-- R77. First the bare list of the transaction's commands, with the final state in full. Then any list of legal commands
whose RT_ commands are that list: the others may stand before, between and after them, as CFG_BO_BASE, CRC commands, CLR_ERR
and reads do in a host that works between attempts. -/
def Obligations.TransactionContract : Prop :=
  ∀ (s : State) (m : Byte) (fails : List ResultCode) (last : ResultCode),
    s.retryUnit.rtState = .idle → m ≠ 0x00 → (∀ r ∈ fails, r.classOf = .transient) →
    fails.length < m.toNat → (last.classOf = .transient → fails.length + 1 = m.toNat) →
    (execAll (.rtStart m :: reportAll (fails ++ [last])) s =
      .next { s with retryUnit := { s.retryUnit with
        rtState := .done, maxAtt := m, attempt := BitVec.ofNat 8 (fails.length + 1), result := last,
        exhausted := decide (last.classOf = .transient), aborted := false,
        backoff := if fails = [] then 0 else backoffAt s.retryUnit.boBase s.retryUnit.boCap fails.length } }) ∧
    (∀ is : List Instr, is.filter isRtCommand = .rtStart m :: reportAll (fails ++ [last]) → ∃ t,
      execAll is s = .next t ∧ acceptedCount (fun _ => true) is s = is.length ∧
      t.retryUnit.rtState = .done ∧ t.retryUnit.result = last ∧
      t.retryUnit.attempt.toNat = fails.length + 1 ∧ t.retryUnit.maxAtt = m ∧
      t.retryUnit.exhausted = decide (last.classOf = .transient) ∧ t.retryUnit.aborted = false)

/-- R79: the bounds on one transaction, whatever else the host sends, and that the block starts no attempt by itself: only
RT_START and RT_RETRY request one. ATTEMPT within its budget is R31's invariant, which StepKeepsTheInvariants states. -/
def Obligations.TransactionsAreBounded : Prop :=
  (∀ (s : State) (m : Byte) (is : List Instr), s.retryUnit.rtState = .idle → (∀ i ∈ is, isStart i = false) →
    acceptedCount isReport (.rtStart m :: is) s ≤ m.toNat ∧
    acceptedCount isRetry (.rtStart m :: is) s ≤ m.toNat - 1) ∧
  (∀ (s : State) (is : List Instr), s.retryUnit.AttemptInv → s.retryUnit.rtState ≠ .idle →
    (∀ i ∈ is, isStart i = false) →
    acceptedCount isRtCommand is s ≤
      2 * (s.retryUnit.maxAtt.toNat - s.retryUnit.attempt.toNat) + 2) ∧
  (∀ s : State, s.retryUnit.rtState ≠ .idle → ∃ i, isRtCommand i = true ∧ legalIn i s = true) ∧
  (∀ (i : Instr) (s t : State), exec i s = .next t → s.retryUnit.rtState ≠ .issue → t.retryUnit.rtState = .issue →
    i = .rtRetry ∨ ∃ m, i = .rtStart m)

/-- Derived from R73, R77, R81 and R84 (log 10): PERFORM returns the transaction's result and leaves the unit IDLE with it
readable. In order: a host that sends RT_RETRY after each transient failure that leaves budget; a host that sends RT_ABORT
after the first attempt for which it gives up, whatever outcomes it had left; and PERFORM 0, which makes no attempt. -/
def Obligations.PerformReturnsTheResult : Prop :=
  (∀ (s : State) (m : Byte) (fails : List ResultCode) (last : ResultCode) (more : List ResultCode) (giveUp : Byte → Bool),
    s.retryUnit.rtState = .idle → m ≠ 0x00 → (∀ r ∈ fails, r.classOf = .transient) →
    fails.length < m.toNat → (last.classOf = .transient → fails.length + 1 = m.toNat) →
    (∀ k, 1 ≤ k → k ≤ fails.length → giveUp (BitVec.ofNat 8 k) = false) →
    ∃ t, perform m (fails ++ last :: more) giveUp s = some (last.toCode4, t) ∧
      t.retryUnit.rtState = .idle ∧ t.retryUnit.result = last ∧
      t.retryUnit.attempt.toNat = fails.length + 1 ∧
      t.retryUnit.exhausted = decide (last.classOf = .transient) ∧ t.retryUnit.aborted = false ∧
      t.crcUnit = s.crcUnit ∧ t.errors = s.errors) ∧
  (∀ (s : State) (m : Byte) (fails : List ResultCode) (last : ResultCode) (more : List ResultCode) (giveUp : Byte → Bool),
    s.retryUnit.rtState = .idle → (∀ r ∈ fails, r.classOf = .transient) → last.classOf = .transient →
    fails.length + 1 < m.toNat →
    (∀ k, 1 ≤ k → k ≤ fails.length → giveUp (BitVec.ofNat 8 k) = false) →
    giveUp (BitVec.ofNat 8 (fails.length + 1)) = true →
    ∃ t, perform m (fails ++ last :: more) giveUp s = some (last.toCode4, t) ∧
      t.retryUnit.rtState = .idle ∧ t.retryUnit.result = last ∧
      t.retryUnit.attempt.toNat = fails.length + 1 ∧
      t.retryUnit.exhausted = false ∧ t.retryUnit.aborted = true ∧
      t.crcUnit = s.crcUnit ∧ t.errors = s.errors) ∧
  (∀ (s : State) (outcomes : List ResultCode) (giveUp : Byte → Bool), s.retryUnit.rtState = .idle →
    ∃ t, perform 0x00 outcomes giveUp s = some (0x4, t) ∧
      t.retryUnit.rtState = .idle ∧ t.retryUnit.result = .invalidArgument ∧
      t.retryUnit.attempt = 0x00 ∧ t.retryUnit.maxAtt = 0x00 ∧
      t.retryUnit.exhausted = false ∧ t.retryUnit.aborted = false ∧
      t.crcUnit = s.crcUnit ∧ t.errors = s.errors)

/-- R88: no command of one unit writes the other, and none reads it. -/
def Obligations.UnitsShareOnlyTheErrorRecord : Prop :=
  (∀ (i : Instr) (s t : State), isRetryCommand i = true → exec i s = .next t → t.crcUnit = s.crcUnit) ∧
  (∀ (i : Instr) (s t : State), isCrcCommand i = true → exec i s = .next t → t.retryUnit = s.retryUnit) ∧
  (∀ (i : Instr) (s t : State) (u : CrcUnit), isRetryCommand i = true → exec i s = .next t →
    exec i (s.setCrcUnit u) = .next (t.setCrcUnit u)) ∧
  (∀ (i : Instr) (s t : State) (u : RetryUnit), isCrcCommand i = true → exec i s = .next t →
    exec i (s.setRetryUnit u) = .next (t.setRetryUnit u)) ∧
  (∀ (b : Byte) (s : State), ∃ t, exec (.crcCheck b) s = .next t ∧ t.retryUnit.result = s.retryUnit.result) ∧
  (∀ s : State, s.retryUnit.rtState = .issue → ∃ t, exec (.rtReport 0x6) s = .next t ∧
    t.retryUnit.result = .checksum ∧ t.retryUnit.rtState = .done)

/-! ## Command errors -/

/-- R115: first-error capture. -/
def Obligations.CommandErrorRecordsTheFirst : Prop :=
  (∀ (cause : ErrCause) (opc : Byte) (s : State), s.errors.cmdErr = false →
    cmdError cause opc s = { s with errors := { cmdErr := true, errCause := cause, errOpc := opc } }) ∧
  (∀ (cause : ErrCause) (opc : Byte) (s : State), s.errors.cmdErr = true → cmdError cause opc s = s) ∧
  (∀ (w : Word) (e : DecodeError) (s : State), decodeCommand w = .error e →
    runCommand w s = .next (cmdError (causeOf e) (w.extractLsb' 24 8) s)) ∧
  (∀ (w : Word) (i : Instr) (s : State), decodeCommand w = .ok i → legalIn i s = false →
    ∃ cause, runCommand w s = .next (cmdError cause (w.extractLsb' 24 8) s))

/-- R117: the cause reported is that of the first check that fails; and the rule's three examples. -/
def Obligations.ErrorPriority : Prop :=
  (∀ (w : Word) (s : State), s.Clean → ∃ t, runCommand w s = .next t ∧
    t.errors.errCause =
      (if ¬ ∃ r ∈ opcodeRows, r.matchBits.extractLsb' 24 8 = w.extractLsb' 24 8 then .unknownOpcode
       else if ¬ ∃ r ∈ opcodeRows, r.selects w = true then .reservedBits
       else if (w.extractLsb' 24 8 = 0x20#8 ∧ s.retryUnit.rtState ≠ .idle) ∨
           (w.extractLsb' 24 8 = 0x21#8 ∧ s.retryUnit.rtState ≠ .issue) ∨
           (w.extractLsb' 24 8 = 0x22#8 ∧ s.retryUnit.rtState ≠ .wait) ∨
           (w.extractLsb' 24 8 = 0x23#8 ∧ s.retryUnit.rtState ≠ .wait) ∨
           (w.extractLsb' 24 8 = 0x24#8 ∧ s.retryUnit.rtState ≠ .done) then .badState
       else if w.extractLsb' 24 8 = 0x21#8 ∧ 9 ≤ (w.extractLsb' 0 4).toNat then .reservedCode
       else if w = 0x04000000 then .none
       else s.errors.errCause)) ∧
  (∀ s : State, s.retryUnit.rtState = .idle →
    runCommand 0x21000010 s = .next (cmdError .reservedBits 0x21 s) ∧
    runCommand 0x2100000F s = .next (cmdError .badState 0x21 s)) ∧
  (∀ s : State, s.retryUnit.rtState = .issue →
    runCommand 0x2100000F s = .next (cmdError .reservedCode 0x21 s))

/-- Derived from R120: an instruction that is legal raises nothing, whatever outcome it records (R119); one that is not has none of its
effect. -/
def Obligations.CommandErrorsArePrecise : Prop :=
  (∀ (i : Instr) (s : State), legalIn i s = false →
    ∃ cause opc, exec i s = .next (cmdError cause opc s)) ∧
  (∀ (w : Word) (s : State), (∀ i, decodeCommand w ≠ .ok i) →
    ∃ cause, runCommand w s = .next (cmdError cause (w.extractLsb' 24 8) s)) ∧
  (∀ (i : Instr) (s : State), legalIn i s = true → i ≠ .clrErr →
    ∃ t, exec i s = .next t ∧ t.errors = s.errors) ∧
  (∀ (i : Instr) (s t : State) (e : ErrorRecord), exec i s = .next t → ∃ t',
    exec i (s.setErrors e) = .next t' ∧ t'.crcUnit = t.crcUnit ∧ t'.retryUnit = t.retryUnit)

/-! ## Reset -/

/-- R131: reset sets every element, from any state; R133: also from ISSUE, after which a report is BAD_STATE. -/
def Obligations.ResetSetsEveryElement : Prop :=
  (∀ s : State, ∃ t, runOp .reset s = .next t ∧
    t.crcUnit = { devAddr := 0x00, seed := 0x07, crc := 0x00, count := 0x0000, chkDone := false, chkOk := false,
                  chkRcvd := 0x00 } ∧
    t.retryUnit = { rtState := .idle, maxAtt := 0x00, attempt := 0x00, result := .ok, exhausted := false,
                    aborted := false, boBase := 0x0001, boCap := 0xFFFF, backoff := 0x0000 } ∧
    t.errors = { cmdErr := false, errCause := .none, errOpc := 0x00 }) ∧
  seedOf 0x00 = 0x07 ∧
  (∀ s : State, s.retryUnit.rtState = .issue → ∃ t, runOp .reset s = .next t ∧
    ∀ c : Code4, exec (.rtReport c) t = .next (cmdError .badState 0x21 t))

/-- R132. -/
def Obligations.RegisterWordsAfterReset : Prop :=
  readRegister State.reset 0x0 = 0x43523801 ∧ readRegister State.reset 0x1 = 0x00000000 ∧
  readRegister State.reset 0x2 = 0x00000700 ∧ readRegister State.reset 0x3 = 0x00000100 ∧
  readRegister State.reset 0x4 = 0x00000000 ∧ readRegister State.reset 0x5 = 0x00000000 ∧
  readRegister State.reset 0x6 = 0xFFFF0001 ∧ readRegister State.reset 0x7 = 0x00000000 ∧
  readRegister State.reset 0x8 = 0x00000000 ∧
  (∀ i : RegIndex, 9 ≤ i.toNat → readRegister State.reset i = 0x00000000)

/-- Derived from R122: a reset that coincides with a command leaves the reset state, or the command's effect on it; ordered, each is an
ordinary step. The statement holds for every value of the free value Config.resetWins (log 4). -/
def Obligations.ResetRacingACommand : Prop :=
  (∀ (s : State) (w : Word), ∃ t u, runOp (.resetDuringCmd w) s = .next t ∧ runCommand w State.reset = .next u ∧
    ((t.crcUnit, t.retryUnit, t.errors) = (State.reset.crcUnit, State.reset.retryUnit, State.reset.errors) ∨
     (t.crcUnit, t.retryUnit, t.errors) = (u.crcUnit, u.retryUnit, u.errors))) ∧
  (∀ (s : State) (w : Word), runOp (.writeCmd w) s = runCommand w s) ∧
  (∀ s : State, ∃ t, runOp .reset s = .next t ∧
    (t.crcUnit, t.retryUnit, t.errors) = (State.reset.crcUnit, State.reset.retryUnit, State.reset.errors))

/-! ## Whole-machine rules -/

/-- The invariants of StepKeepsTheInvariants hold after reset. -/
def Obligations.ResetMeetsTheInvariants : Prop := State.reset.Inv

/-- Derived from the invariants of R23, R27 and R31 and from R28, R32, R34, R35 and R38: every step keeps them, from every
state that meets them, resets and races included. -/
def Obligations.StepKeepsTheInvariants : Prop :=
  ∀ s t : State, s.Inv → step s = .next t → t.Inv

/-- Derived from R14, R68: no state stops the block. -/
def Obligations.TheBlockNeverStops : Prop :=
  ∀ s : State, ∃ t, step s = .next t

/-- Derived from R22 to R38: the only instructions that change each element. -/
def Obligations.OnlyTheNamedCommandsWrite : Prop :=
  ∀ (i : Instr) (s t : State), exec i s = .next t →
    (t.crcUnit.devAddr ≠ s.crcUnit.devAddr ∨ t.crcUnit.seed ≠ s.crcUnit.seed → ∃ a, i = .cfgAddr a) ∧
    (t.crcUnit.crc ≠ s.crcUnit.crc ∨ t.crcUnit.count ≠ s.crcUnit.count →
      i = .crcInit ∨ (∃ b, i = .crcLoad b) ∨ ∃ b, i = .crcByte b) ∧
    (t.crcUnit.chkDone ≠ s.crcUnit.chkDone ∨ t.crcUnit.chkOk ≠ s.crcUnit.chkOk ∨
        t.crcUnit.chkRcvd ≠ s.crcUnit.chkRcvd →
      i = .crcInit ∨ (∃ b, i = .crcLoad b) ∨ ∃ b, i = .crcCheck b) ∧
    (t.retryUnit.maxAtt ≠ s.retryUnit.maxAtt → ∃ m, i = .rtStart m) ∧
    (t.retryUnit.attempt ≠ s.retryUnit.attempt → (∃ m, i = .rtStart m) ∨ i = .rtRetry) ∧
    (t.retryUnit.result ≠ s.retryUnit.result ∨ t.retryUnit.exhausted ≠ s.retryUnit.exhausted ∨
        t.retryUnit.backoff ≠ s.retryUnit.backoff →
      (∃ m, i = .rtStart m) ∨ ∃ c, i = .rtReport c) ∧
    (t.retryUnit.aborted ≠ s.retryUnit.aborted → (∃ m, i = .rtStart m) ∨ i = .rtAbort) ∧
    (t.retryUnit.rtState ≠ s.retryUnit.rtState → isRtCommand i = true ∧ legalIn i s = true) ∧
    (t.retryUnit.boBase ≠ s.retryUnit.boBase → ∃ v, i = .cfgBoBase v) ∧
    (t.retryUnit.boCap ≠ s.retryUnit.boCap → ∃ v, i = .cfgBoCap v) ∧
    (t.errors ≠ s.errors → i = .clrErr ∨ (s.errors.cmdErr = false ∧ legalIn i s = false)) ∧
    (t.host ≠ s.host → ∃ index, i = .regRead index)

/-- Derived from R44: what the read port shows, and what a command does to the block, depend on the elements of R20 alone. -/
def Obligations.OnlyTheBlocksStateIsObserved : Prop :=
  (∀ (i : RegIndex) (s t : State), s.crcUnit = t.crcUnit → s.retryUnit = t.retryUnit → s.errors = t.errors →
    readRegister s i = readRegister t i) ∧
  (∀ (w : Word) (s : State) (p : HostPort), ∃ t t', runCommand w s = .next t ∧
    runCommand w { s with host := p } = .next t' ∧
    t'.crcUnit = t.crcUnit ∧ t'.retryUnit = t.retryUnit ∧ t'.errors = t.errors ∧ t'.host = p)

/-- Derived from R69: the rule's examples, a name for a code, a comment, and the operands the assembler refuses. -/
def Obligations.AssemblerSpellings : Prop :=
  assembleOps "CRC_BYTE 0x1E" = .ok [.writeCmd 0x1200001E] ∧
  assembleOps "CFG_ADDR 0x0A" = .ok [.writeCmd 0x0100000A] ∧
  assembleOps "RT_START 3" = .ok [.writeCmd 0x20000003] ∧
  assembleOps "RT_REPORT BUS_IO" = .ok [.writeCmd 0x21000002] ∧
  assembleOps "RT_REPORT 0xF ; an illegal report, for tests" = .ok [.writeCmd 0x2100000F] ∧
  assembleOps "RD STATUS" = .ok [.readReg 0x1] ∧
  assembleOps "CRC_BYTE 0x100" = .error .operandTooLarge ∧
  assembleOps "CFG_BO_BASE 65536" = .error .operandTooLarge ∧
  assembleOps "CFG_ADDR 0x80" = .error .operandTooLarge ∧
  assembleOps "RT_REPORT 16" = .error .operandTooLarge
end

