-- ==== Sys2Proof/Laws/Decode.lean ====
section
/-!
SUPPORT. The fields of a command word built from an opcode and an operand (30_encoding.md R61, R62, R65).
-/
namespace Sys2Proof.Machine

/-- Every bit of a built word: the operand's below bit 24, the opcode's from there. All the lemmas below follow. -/
theorem commandWord_getLsbD (opc : Byte) {n : Nat} (operand : BitVec n) (i : Nat) :
    (commandWord opc operand).getLsbD i =
      if i < 24 then operand.getLsbD i else opc.getLsbD (i - 24) := by
  have h : (commandWord opc operand).getLsbD i = _ :=
    BitVec.getLsbD_append (x := opc) (y := operand.setWidth 24) (i := i)
  rw [h]
  by_cases hi : i < 24 <;> simp [hi]

@[simp] theorem opcField_commandWord (opc : Byte) {n : Nat} (operand : BitVec n) :
    opcField (commandWord opc operand) = opc := by
  ext i hi
  simp [opcField, commandWord_getLsbD, ← BitVec.getLsbD_eq_getElem, hi]

/-- The low field of a built word that is exactly as wide as its operand holds the operand. -/
theorem lowField_commandWord (opc : Byte) {n : Nat} (operand : BitVec n) (h : n ≤ 24) :
    (commandWord opc operand).extractLsb' 0 n = operand := by
  ext i hi
  simp [commandWord_getLsbD, ← BitVec.getLsbD_eq_getElem, show i < 24 by omega, hi]

@[simp] theorem imm8Field_commandWord (opc b : Byte) : imm8Field (commandWord opc b) = b :=
  lowField_commandWord opc b (by omega)

@[simp] theorem imm16Field_commandWord (opc : Byte) (v : Half) : imm16Field (commandWord opc v) = v :=
  lowField_commandWord opc v (by omega)

@[simp] theorem addr7Field_commandWord (opc : Byte) (a : Addr7) : addr7Field (commandWord opc a) = a :=
  lowField_commandWord opc a (by omega)

@[simp] theorem code4Field_commandWord (opc : Byte) (c : Code4) : code4Field (commandWord opc c) = c :=
  lowField_commandWord opc c (by omega)

/-- The OPND bits above a built word's operand are clear. -/
theorem upperBits_commandWord (opc : Byte) {n k : Nat} (operand : BitVec n) (h : n + k ≤ 24) :
    (commandWord opc operand).extractLsb' n k = 0#k := by
  ext i hi
  simp [commandWord_getLsbD, show n + i < 24 by omega]

@[simp] theorem reservedClear_n (opc : Byte) : reservedClear .n (commandWord opc 0#0) = true := by
  simp [reservedClear, upperBits_commandWord opc 0#0 (k := 24) (by omega)]

@[simp] theorem reservedClear_b (opc b : Byte) : reservedClear .b (commandWord opc b) = true := by
  simp [reservedClear, upperBits_commandWord opc b (k := 16) (by omega)]

@[simp] theorem reservedClear_h (opc : Byte) (v : Half) : reservedClear .h (commandWord opc v) = true := by
  simp [reservedClear, upperBits_commandWord opc v (k := 8) (by omega)]

@[simp] theorem reservedClear_a (opc : Byte) (a : Addr7) : reservedClear .a (commandWord opc a) = true := by
  simp [reservedClear, upperBits_commandWord opc a (k := 17) (by omega)]

@[simp] theorem reservedClear_e (opc : Byte) (c : Code4) : reservedClear .e (commandWord opc c) = true := by
  simp [reservedClear, upperBits_commandWord opc c (k := 20) (by omega)]

/-! ## The decoder, one lemma per opcode (R64) -/

theorem reservedClear_n_eq (w : Word) : reservedClear .n w = (w.extractLsb' 0 24 == 0#24) := rfl
theorem reservedClear_b_eq (w : Word) : reservedClear .b w = (w.extractLsb' 8 16 == 0#16) := rfl
theorem reservedClear_h_eq (w : Word) : reservedClear .h w = (w.extractLsb' 16 8 == 0#8) := rfl
theorem reservedClear_a_eq (w : Word) : reservedClear .a w = (w.extractLsb' 7 17 == 0#17) := rfl
theorem reservedClear_e_eq (w : Word) : reservedClear .e w = (w.extractLsb' 4 20 == 0#20) := rfl

theorem checkReserved_of_clear {f : Format} {w : Word} (h : reservedClear f w = true) (i : Instr) :
    checkReserved f w i = .ok i := by simp [checkReserved, h]

theorem checkReserved_of_set {f : Format} {w : Word} (h : reservedClear f w = false) (i : Instr) :
    checkReserved f w i = .error .reservedBits := by simp [checkReserved, h]

variable {w : Word}

theorem decode_nop (h : opcField w = 0x00) : decodeCommand w = checkReserved .n w .nop := by
  unfold decodeCommand
  rw [h]
  rfl
theorem decode_cfgAddr (h : opcField w = 0x01) : decodeCommand w = checkReserved .a w (.cfgAddr (addr7Field w)) := by
  unfold decodeCommand
  rw [h]
  rfl
theorem decode_cfgBoBase (h : opcField w = 0x02) : decodeCommand w = checkReserved .h w (.cfgBoBase (imm16Field w)) := by
  unfold decodeCommand
  rw [h]
  rfl
theorem decode_cfgBoCap (h : opcField w = 0x03) : decodeCommand w = checkReserved .h w (.cfgBoCap (imm16Field w)) := by
  unfold decodeCommand
  rw [h]
  rfl
theorem decode_clrErr (h : opcField w = 0x04) : decodeCommand w = checkReserved .n w .clrErr := by
  unfold decodeCommand
  rw [h]
  rfl
theorem decode_crcInit (h : opcField w = 0x10) : decodeCommand w = checkReserved .n w .crcInit := by
  unfold decodeCommand
  rw [h]
  rfl
theorem decode_crcLoad (h : opcField w = 0x11) : decodeCommand w = checkReserved .b w (.crcLoad (imm8Field w)) := by
  unfold decodeCommand
  rw [h]
  rfl
theorem decode_crcByte (h : opcField w = 0x12) : decodeCommand w = checkReserved .b w (.crcByte (imm8Field w)) := by
  unfold decodeCommand
  rw [h]
  rfl
theorem decode_crcCheck (h : opcField w = 0x13) : decodeCommand w = checkReserved .b w (.crcCheck (imm8Field w)) := by
  unfold decodeCommand
  rw [h]
  rfl
theorem decode_rtStart (h : opcField w = 0x20) : decodeCommand w = checkReserved .b w (.rtStart (imm8Field w)) := by
  unfold decodeCommand
  rw [h]
  rfl
theorem decode_rtReport (h : opcField w = 0x21) : decodeCommand w = checkReserved .e w (.rtReport (code4Field w)) := by
  unfold decodeCommand
  rw [h]
  rfl
theorem decode_rtRetry (h : opcField w = 0x22) : decodeCommand w = checkReserved .n w .rtRetry := by
  unfold decodeCommand
  rw [h]
  rfl
theorem decode_rtAbort (h : opcField w = 0x23) : decodeCommand w = checkReserved .n w .rtAbort := by
  unfold decodeCommand
  rw [h]
  rfl
theorem decode_rtClear (h : opcField w = 0x24) : decodeCommand w = checkReserved .n w .rtClear := by
  unfold decodeCommand
  rw [h]
  rfl

/-- An opcode of no row is UNKNOWN_OPCODE, whatever OPND holds (R66). -/
theorem decode_unknown (h : ∀ r ∈ opcodeRows, opcField w ≠ opcField r.matchBits) :
    decodeCommand w = .error .unknownOpcode := by
  have hops : opcodeRows.map (fun r => opcField r.matchBits) =
      [Opc.nop, Opc.cfgAddr, Opc.cfgBoBase, Opc.cfgBoCap, Opc.clrErr, Opc.crcInit, Opc.crcLoad, Opc.crcByte,
       Opc.crcCheck, Opc.rtStart, Opc.rtReport, Opc.rtRetry, Opc.rtAbort, Opc.rtClear] := by decide
  have hn : opcField w ∉ opcodeRows.map (fun r => opcField r.matchBits) := by
    simpa using fun r hr => (h r hr).symm
  simp only [hops, List.mem_cons, List.not_mem_nil, or_false, not_or] at hn
  simp [decodeCommand, hn]

/-- Everything the decoder can answer: an opcode of R64 with its format's check, or UNKNOWN_OPCODE for every other. -/
theorem decode_cases (w : Word) :
    (opcField w = 0x00 ∧ decodeCommand w = checkReserved .n w .nop) ∨
    (opcField w = 0x01 ∧ decodeCommand w = checkReserved .a w (.cfgAddr (addr7Field w))) ∨
    (opcField w = 0x02 ∧ decodeCommand w = checkReserved .h w (.cfgBoBase (imm16Field w))) ∨
    (opcField w = 0x03 ∧ decodeCommand w = checkReserved .h w (.cfgBoCap (imm16Field w))) ∨
    (opcField w = 0x04 ∧ decodeCommand w = checkReserved .n w .clrErr) ∨
    (opcField w = 0x10 ∧ decodeCommand w = checkReserved .n w .crcInit) ∨
    (opcField w = 0x11 ∧ decodeCommand w = checkReserved .b w (.crcLoad (imm8Field w))) ∨
    (opcField w = 0x12 ∧ decodeCommand w = checkReserved .b w (.crcByte (imm8Field w))) ∨
    (opcField w = 0x13 ∧ decodeCommand w = checkReserved .b w (.crcCheck (imm8Field w))) ∨
    (opcField w = 0x20 ∧ decodeCommand w = checkReserved .b w (.rtStart (imm8Field w))) ∨
    (opcField w = 0x21 ∧ decodeCommand w = checkReserved .e w (.rtReport (code4Field w))) ∨
    (opcField w = 0x22 ∧ decodeCommand w = checkReserved .n w .rtRetry) ∨
    (opcField w = 0x23 ∧ decodeCommand w = checkReserved .n w .rtAbort) ∨
    (opcField w = 0x24 ∧ decodeCommand w = checkReserved .n w .rtClear) ∨
    ((∀ r ∈ opcodeRows, opcField w ≠ opcField r.matchBits) ∧ decodeCommand w = .error .unknownOpcode) := by
  by_cases h : ∃ r ∈ opcodeRows, opcField w = opcField r.matchBits
  · obtain ⟨r, hr, h⟩ := h
    fin_cases hr
    · exact .inl ⟨h, decode_nop h⟩
    · exact .inr (.inl ⟨h, decode_cfgAddr h⟩)
    · exact .inr (.inr (.inl ⟨h, decode_cfgBoBase h⟩))
    · exact .inr (.inr (.inr (.inl ⟨h, decode_cfgBoCap h⟩)))
    · exact .inr (.inr (.inr (.inr (.inl ⟨h, decode_clrErr h⟩))))
    · exact .inr (.inr (.inr (.inr (.inr (.inl ⟨h, decode_crcInit h⟩)))))
    · exact .inr (.inr (.inr (.inr (.inr (.inr (.inl ⟨h, decode_crcLoad h⟩))))))
    · exact .inr (.inr (.inr (.inr (.inr (.inr (.inr (.inl ⟨h, decode_crcByte h⟩)))))))
    · exact .inr (.inr (.inr (.inr (.inr (.inr (.inr (.inr (.inl ⟨h, decode_crcCheck h⟩))))))))
    · exact .inr (.inr (.inr (.inr (.inr (.inr (.inr (.inr (.inr (.inl ⟨h, decode_rtStart h⟩)))))))))
    · exact .inr (.inr (.inr (.inr (.inr (.inr (.inr (.inr (.inr (.inr (.inl ⟨h, decode_rtReport h⟩))))))))))
    · exact .inr (.inr (.inr (.inr (.inr (.inr (.inr (.inr (.inr (.inr (.inr (.inl ⟨h, decode_rtRetry h⟩)))))))))))
    · exact .inr (.inr (.inr (.inr (.inr (.inr (.inr (.inr (.inr (.inr (.inr (.inr (.inl ⟨h, decode_rtAbort h⟩))))))))))))
    · exact .inr (.inr (.inr (.inr (.inr (.inr (.inr (.inr (.inr (.inr (.inr (.inr (.inr (.inl ⟨h, decode_rtClear h⟩)))))))))))))
  · simp only [not_exists, not_and] at h
    exact .inr (.inr (.inr (.inr (.inr (.inr (.inr (.inr (.inr (.inr (.inr (.inr (.inr (.inr ⟨h, decode_unknown h⟩)))))))))))))

/-! ## Words written out as their parts -/



/-- Every bit of a word written out as opcode, reserved bits and operand. -/
theorem parts_getLsbD {n m : Nat} (opc : Byte) (reserved : BitVec n) (operand : BitVec m) (i : Nat) :
    (opc ++ reserved ++ operand).getLsbD i =
      if i < m then operand.getLsbD i
      else if i < m + n then reserved.getLsbD (i - m) else opc.getLsbD (i - m - n) := by
  rw [BitVec.getLsbD_append, BitVec.getLsbD_append]
  by_cases h : i < m
  · simp [h]
  · by_cases h' : i - m < n
    · simp [h, h', show i < m + n by omega]
    · simp [h, h', show ¬ i < m + n by omega]

/-- The opcode of a word written out as its parts. -/
theorem parts_opcode {n m : Nat} (opc : Byte) (reserved : BitVec n) (operand : BitVec m) (h : m + n = 24) :
    (opc ++ reserved ++ operand).extractLsb' 24 8 = opc := by
  ext i hi
  simp only [BitVec.getElem_extractLsb', parts_getLsbD]
  rw [if_neg (by omega), if_neg (by omega), show 24 + i - m - n = i by omega, BitVec.getLsbD_eq_getElem hi]

/-- The operand of a word written out as its parts. -/
theorem parts_operand {n m : Nat} (opc : Byte) (reserved : BitVec n) (operand : BitVec m) :
    (opc ++ reserved ++ operand).extractLsb' 0 m = operand := by
  ext i hi
  simp only [BitVec.getElem_extractLsb', parts_getLsbD]
  rw [if_pos (by omega), Nat.zero_add, BitVec.getLsbD_eq_getElem hi]

/-- The reserved bits of a word written out as its parts. -/
theorem parts_reserved {n m : Nat} (opc : Byte) (reserved : BitVec n) (operand : BitVec m) :
    (opc ++ reserved ++ operand).extractLsb' m n = reserved := by
  ext i hi
  simp only [BitVec.getElem_extractLsb', parts_getLsbD]
  rw [if_neg (by omega), if_pos (by omega), show m + i - m = i by omega, BitVec.getLsbD_eq_getElem hi]

/-- The opcode of a word of format N written out as its parts. -/
theorem parts_opcode_n (opc : Byte) (reserved : BitVec 24) : (opc ++ reserved).extractLsb' 24 8 = opc := by
  ext i hi
  rw [BitVec.getElem_extractLsb', BitVec.getLsbD_append, if_neg (by omega), Nat.add_sub_cancel_left,
    BitVec.getLsbD_eq_getElem hi]

/-- The reserved bits of a word of format N written out as its parts. -/
theorem parts_reserved_n (opc : Byte) (reserved : BitVec 24) : (opc ++ reserved).extractLsb' 0 24 = reserved := by
  ext i hi
  rw [BitVec.getElem_extractLsb', BitVec.getLsbD_append, if_pos (by omega), Nat.zero_add,
    BitVec.getLsbD_eq_getElem hi]

end Sys2Proof.Machine
end

