-- ==== Sys2Proof/Laws/State.lean ====
section
/-!
SUPPORT. What each update of the state leaves in each field, one lemma per field per update, so that no later proof unfolds a record update.
-/
namespace Sys2Proof.Machine

variable (s : State)

@[simp] theorem State.setCrcUnit_crcUnit (u : CrcUnit) : (s.setCrcUnit u).crcUnit = u := rfl
@[simp] theorem State.setCrcUnit_retryUnit (u : CrcUnit) : (s.setCrcUnit u).retryUnit = s.retryUnit := rfl
@[simp] theorem State.setCrcUnit_errors (u : CrcUnit) : (s.setCrcUnit u).errors = s.errors := rfl
@[simp] theorem State.setCrcUnit_host (u : CrcUnit) : (s.setCrcUnit u).host = s.host := rfl

@[simp] theorem State.setRetryUnit_crcUnit (u : RetryUnit) : (s.setRetryUnit u).crcUnit = s.crcUnit := rfl
@[simp] theorem State.setRetryUnit_retryUnit (u : RetryUnit) : (s.setRetryUnit u).retryUnit = u := rfl
@[simp] theorem State.setRetryUnit_errors (u : RetryUnit) : (s.setRetryUnit u).errors = s.errors := rfl
@[simp] theorem State.setRetryUnit_host (u : RetryUnit) : (s.setRetryUnit u).host = s.host := rfl

@[simp] theorem State.setErrors_crcUnit (e : ErrorRecord) : (s.setErrors e).crcUnit = s.crcUnit := rfl
@[simp] theorem State.setErrors_retryUnit (e : ErrorRecord) : (s.setErrors e).retryUnit = s.retryUnit := rfl
@[simp] theorem State.setErrors_errors (e : ErrorRecord) : (s.setErrors e).errors = e := rfl
@[simp] theorem State.setErrors_host (e : ErrorRecord) : (s.setErrors e).host = s.host := rfl

@[simp] theorem State.answer_crcUnit (w : Word) : (s.answer w).crcUnit = s.crcUnit := rfl
@[simp] theorem State.answer_retryUnit (w : Word) : (s.answer w).retryUnit = s.retryUnit := rfl
@[simp] theorem State.answer_errors (w : Word) : (s.answer w).errors = s.errors := rfl
@[simp] theorem State.answer_pending (w : Word) : (s.answer w).host.pending = s.host.pending := rfl
@[simp] theorem State.answer_answers (w : Word) : (s.answer w).host.answers = w :: s.host.answers := rfl
@[simp] theorem State.answer_races (w : Word) : (s.answer w).host.races = s.host.races := rfl

@[simp] theorem cmdError_crcUnit (cause : ErrCause) (opc : Byte) : (cmdError cause opc s).crcUnit = s.crcUnit := rfl
@[simp] theorem cmdError_retryUnit (cause : ErrCause) (opc : Byte) : (cmdError cause opc s).retryUnit = s.retryUnit := rfl
@[simp] theorem cmdError_errors (cause : ErrCause) (opc : Byte) : (cmdError cause opc s).errors = s.errors.capture cause opc := rfl
@[simp] theorem cmdError_host (cause : ErrCause) (opc : Byte) : (cmdError cause opc s).host = s.host := rfl

@[simp] theorem resetBlock_crcUnit : (resetBlock s).crcUnit = State.reset.crcUnit := rfl
@[simp] theorem resetBlock_retryUnit : (resetBlock s).retryUnit = State.reset.retryUnit := rfl
@[simp] theorem resetBlock_errors : (resetBlock s).errors = State.reset.errors := rfl
@[simp] theorem resetBlock_host : (resetBlock s).host = s.host := rfl

@[simp] theorem State.countRace_crcUnit : s.countRace.crcUnit = s.crcUnit := rfl
@[simp] theorem State.countRace_retryUnit : s.countRace.retryUnit = s.retryUnit := rfl
@[simp] theorem State.countRace_errors : s.countRace.errors = s.errors := rfl
@[simp] theorem State.countRace_pending : s.countRace.host.pending = s.host.pending := rfl
@[simp] theorem State.countRace_answers : s.countRace.host.answers = s.host.answers := rfl
@[simp] theorem State.countRace_races : s.countRace.host.races = s.host.races + 1 := rfl

@[simp] theorem State.place_crcUnit (op : HostOp) : (s.place op).crcUnit = s.crcUnit := rfl
@[simp] theorem State.place_retryUnit (op : HostOp) : (s.place op).retryUnit = s.retryUnit := rfl
@[simp] theorem State.place_errors (op : HostOp) : (s.place op).errors = s.errors := rfl
@[simp] theorem State.place_pending (op : HostOp) : (s.place op).host.pending = op :: s.host.pending := rfl
@[simp] theorem State.place_answers (op : HostOp) : (s.place op).host.answers = s.host.answers := rfl
@[simp] theorem State.place_races (op : HostOp) : (s.place op).host.races = s.host.races := rfl

@[simp] theorem CrcUnit.configure_devAddr (u : CrcUnit) (a : Addr7) : (u.configure a).devAddr = a := rfl
@[simp] theorem CrcUnit.configure_seed (u : CrcUnit) (a : Addr7) : (u.configure a).seed = seedOf a := rfl
@[simp] theorem CrcUnit.configure_crc (u : CrcUnit) (a : Addr7) : (u.configure a).crc = u.crc := rfl
@[simp] theorem CrcUnit.configure_count (u : CrcUnit) (a : Addr7) : (u.configure a).count = u.count := rfl
@[simp] theorem CrcUnit.configure_chkDone (u : CrcUnit) (a : Addr7) : (u.configure a).chkDone = u.chkDone := rfl
@[simp] theorem CrcUnit.configure_chkOk (u : CrcUnit) (a : Addr7) : (u.configure a).chkOk = u.chkOk := rfl
@[simp] theorem CrcUnit.configure_chkRcvd (u : CrcUnit) (a : Addr7) : (u.configure a).chkRcvd = u.chkRcvd := rfl

@[simp] theorem CrcUnit.begin_devAddr (u : CrcUnit) (c : Byte) : (u.begin c).devAddr = u.devAddr := rfl
@[simp] theorem CrcUnit.begin_seed (u : CrcUnit) (c : Byte) : (u.begin c).seed = u.seed := rfl
@[simp] theorem CrcUnit.begin_crc (u : CrcUnit) (c : Byte) : (u.begin c).crc = c := rfl
@[simp] theorem CrcUnit.begin_count (u : CrcUnit) (c : Byte) : (u.begin c).count = 0x0000 := rfl
@[simp] theorem CrcUnit.begin_chkDone (u : CrcUnit) (c : Byte) : (u.begin c).chkDone = false := rfl
@[simp] theorem CrcUnit.begin_chkOk (u : CrcUnit) (c : Byte) : (u.begin c).chkOk = false := rfl
@[simp] theorem CrcUnit.begin_chkRcvd (u : CrcUnit) (c : Byte) : (u.begin c).chkRcvd = 0x00 := rfl

@[simp] theorem CrcUnit.absorb_devAddr (u : CrcUnit) (b : Byte) : (u.absorb b).devAddr = u.devAddr := rfl
@[simp] theorem CrcUnit.absorb_seed (u : CrcUnit) (b : Byte) : (u.absorb b).seed = u.seed := rfl
@[simp] theorem CrcUnit.absorb_crc (u : CrcUnit) (b : Byte) : (u.absorb b).crc = crcStep u.crc b := rfl
@[simp] theorem CrcUnit.absorb_count (u : CrcUnit) (b : Byte) : (u.absorb b).count = countUp u.count := rfl
@[simp] theorem CrcUnit.absorb_chkDone (u : CrcUnit) (b : Byte) : (u.absorb b).chkDone = u.chkDone := rfl
@[simp] theorem CrcUnit.absorb_chkOk (u : CrcUnit) (b : Byte) : (u.absorb b).chkOk = u.chkOk := rfl
@[simp] theorem CrcUnit.absorb_chkRcvd (u : CrcUnit) (b : Byte) : (u.absorb b).chkRcvd = u.chkRcvd := rfl

@[simp] theorem CrcUnit.check_devAddr (u : CrcUnit) (b : Byte) : (u.check b).devAddr = u.devAddr := rfl
@[simp] theorem CrcUnit.check_seed (u : CrcUnit) (b : Byte) : (u.check b).seed = u.seed := rfl
@[simp] theorem CrcUnit.check_crc (u : CrcUnit) (b : Byte) : (u.check b).crc = u.crc := rfl
@[simp] theorem CrcUnit.check_count (u : CrcUnit) (b : Byte) : (u.check b).count = u.count := rfl
@[simp] theorem CrcUnit.check_chkDone (u : CrcUnit) (b : Byte) : (u.check b).chkDone = true := rfl
@[simp] theorem CrcUnit.check_chkOk (u : CrcUnit) (b : Byte) : (u.check b).chkOk = (u.crc == b) := rfl
@[simp] theorem CrcUnit.check_chkRcvd (u : CrcUnit) (b : Byte) : (u.check b).chkRcvd = b := rfl

@[simp] theorem RetryUnit.retry_rtState (u : RetryUnit) : (u.retry).rtState = .issue := rfl
@[simp] theorem RetryUnit.retry_maxAtt (u : RetryUnit) : (u.retry).maxAtt = u.maxAtt := rfl
@[simp] theorem RetryUnit.retry_attempt (u : RetryUnit) : (u.retry).attempt = u.attempt + 1 := rfl
@[simp] theorem RetryUnit.retry_result (u : RetryUnit) : (u.retry).result = u.result := rfl
@[simp] theorem RetryUnit.retry_exhausted (u : RetryUnit) : (u.retry).exhausted = u.exhausted := rfl
@[simp] theorem RetryUnit.retry_aborted (u : RetryUnit) : (u.retry).aborted = u.aborted := rfl
@[simp] theorem RetryUnit.retry_boBase (u : RetryUnit) : (u.retry).boBase = u.boBase := rfl
@[simp] theorem RetryUnit.retry_boCap (u : RetryUnit) : (u.retry).boCap = u.boCap := rfl
@[simp] theorem RetryUnit.retry_backoff (u : RetryUnit) : (u.retry).backoff = u.backoff := rfl

@[simp] theorem RetryUnit.abort_rtState (u : RetryUnit) : (u.abort).rtState = .done := rfl
@[simp] theorem RetryUnit.abort_maxAtt (u : RetryUnit) : (u.abort).maxAtt = u.maxAtt := rfl
@[simp] theorem RetryUnit.abort_attempt (u : RetryUnit) : (u.abort).attempt = u.attempt := rfl
@[simp] theorem RetryUnit.abort_result (u : RetryUnit) : (u.abort).result = u.result := rfl
@[simp] theorem RetryUnit.abort_exhausted (u : RetryUnit) : (u.abort).exhausted = u.exhausted := rfl
@[simp] theorem RetryUnit.abort_aborted (u : RetryUnit) : (u.abort).aborted = true := rfl
@[simp] theorem RetryUnit.abort_boBase (u : RetryUnit) : (u.abort).boBase = u.boBase := rfl
@[simp] theorem RetryUnit.abort_boCap (u : RetryUnit) : (u.abort).boCap = u.boCap := rfl
@[simp] theorem RetryUnit.abort_backoff (u : RetryUnit) : (u.abort).backoff = u.backoff := rfl

@[simp] theorem RetryUnit.acknowledge_rtState (u : RetryUnit) : (u.acknowledge).rtState = .idle := rfl
@[simp] theorem RetryUnit.acknowledge_maxAtt (u : RetryUnit) : (u.acknowledge).maxAtt = u.maxAtt := rfl
@[simp] theorem RetryUnit.acknowledge_attempt (u : RetryUnit) : (u.acknowledge).attempt = u.attempt := rfl
@[simp] theorem RetryUnit.acknowledge_result (u : RetryUnit) : (u.acknowledge).result = u.result := rfl
@[simp] theorem RetryUnit.acknowledge_exhausted (u : RetryUnit) : (u.acknowledge).exhausted = u.exhausted := rfl
@[simp] theorem RetryUnit.acknowledge_aborted (u : RetryUnit) : (u.acknowledge).aborted = u.aborted := rfl
@[simp] theorem RetryUnit.acknowledge_boBase (u : RetryUnit) : (u.acknowledge).boBase = u.boBase := rfl
@[simp] theorem RetryUnit.acknowledge_boCap (u : RetryUnit) : (u.acknowledge).boCap = u.boCap := rfl
@[simp] theorem RetryUnit.acknowledge_backoff (u : RetryUnit) : (u.acknowledge).backoff = u.backoff := rfl

end Sys2Proof.Machine
end

