-- ==== Sys2Proof/Laws/Ops.lean ====
section
/-!
SUPPORT. Everything each shared operation can do, said once: the command error, the state check, the codes, the start and the report of a transaction, the CRC of a longer list.
-/
namespace Sys2Proof.Machine

/-- R115 with CMD_ERR = 0: the record takes the cause and the opcode. -/
theorem ErrorRecord.capture_of_clear {e : ErrorRecord} (h : e.cmdErr = false) (cause : ErrCause) (opc : Byte) :
    e.capture cause opc = { cmdErr := true, errCause := cause, errOpc := opc } := by
  simp [ErrorRecord.capture, h]

/-- R115 with CMD_ERR = 1: the first error stays. -/
theorem ErrorRecord.capture_of_set {e : ErrorRecord} (h : e.cmdErr = true) (cause : ErrCause) (opc : Byte) :
    e.capture cause opc = e := by
  simp [ErrorRecord.capture, h]

theorem ErrorRecord.capture_cmdErr (e : ErrorRecord) (cause : ErrCause) (opc : Byte) :
    (e.capture cause opc).cmdErr = true := by
  unfold ErrorRecord.capture
  split <;> simp_all

theorem inRtState_of_eq {want : RtState} {opc : Byte} {s : State} {effect : Answer}
    (h : s.retryUnit.rtState = want) : inRtState want opc s effect = effect := by
  simp [inRtState, h]

theorem inRtState_of_ne {want : RtState} {opc : Byte} {s : State} {effect : Answer}
    (h : s.retryUnit.rtState ≠ want) : inRtState want opc s effect = .next (cmdError .badState opc s) := by
  simp [inRtState, h]

/-- All that a state check can answer, where its effect answers `t`. -/
theorem inRtState_next {want : RtState} {opc : Byte} {s t t' : State}
    (h : inRtState want opc s (.next t) = .next t') :
    (s.retryUnit.rtState = want ∧ t' = t) ∨
      (s.retryUnit.rtState ≠ want ∧ t' = cmdError .badState opc s) := by
  by_cases hw : s.retryUnit.rtState = want
  · rw [inRtState_of_eq hw] at h
    cases h
    exact .inl ⟨hw, rfl⟩
  · rw [inRtState_of_ne hw] at h
    cases h
    exact .inr ⟨hw, rfl⟩

@[simp] theorem ofCode4_toCode4 (r : ResultCode) : ResultCode.ofCode4 r.toCode4 = some r := by
  cases r <;> rfl

/-- The codes that name no result are 0x9..0xF (R33). -/
theorem ofCode4_eq_none_iff (c : Code4) : ResultCode.ofCode4 c = none ↔ 9 ≤ c.toNat := by
  revert c
  decide

/-- A code that names a result is that result's code. -/
theorem toCode4_of_ofCode4 {c : Code4} {r : ResultCode} (h : ResultCode.ofCode4 c = some r) : r.toCode4 = c := by
  revert c r
  decide +revert

theorem RetryUnit.start_zero (u : RetryUnit) :
    u.start 0x00 = { u with maxAtt := 0x00, exhausted := false, aborted := false, backoff := 0x0000,
                            result := .invalidArgument, attempt := 0x00, rtState := .done } := rfl

theorem RetryUnit.start_of_ne {m : Byte} (h : m ≠ 0x00) (u : RetryUnit) :
    u.start m = { u with maxAtt := m, exhausted := false, aborted := false, backoff := 0x0000,
                         result := .ok, attempt := 0x01, rtState := .issue } := by
  have h' : ¬ m = 0 := h
  simp only [RetryUnit.start, if_neg h']

/-- A result that is not transient ends the transaction with it (R82). -/
theorem RetryUnit.report_of_final {r : ResultCode} (h : r.classOf ≠ .transient) (u : RetryUnit) :
    u.report r = { u with result := r, rtState := .done } := by
  cases r <;> simp_all [RetryUnit.report, ResultCode.classOf]

/-- A transient result with budget left asks for a retry (R82). -/
theorem RetryUnit.report_of_transient {r : ResultCode} (h : r.classOf = .transient) {u : RetryUnit}
    (hb : u.attempt.toNat < u.maxAtt.toNat) :
    u.report r = { u with result := r, backoff := backoffAt u.boBase u.boCap u.attempt.toNat, rtState := .wait } := by
  simp [RetryUnit.report, h, hb]

/-- A transient result with the budget used up exhausts it (R82). -/
theorem RetryUnit.report_of_exhausted {r : ResultCode} (h : r.classOf = .transient) {u : RetryUnit}
    (hb : ¬ u.attempt.toNat < u.maxAtt.toNat) :
    u.report r = { u with result := r, exhausted := true, rtState := .done } := by
  simp [RetryUnit.report, h, hb]

theorem backoffAt_toNat (base cap : Half) (k : Nat) :
    (backoffAt base cap k).toNat = min (base.toNat * 2 ^ (k - 1)) cap.toNat := by
  have := cap.isLt
  simp only [backoffAt, BitVec.toNat_ofNat]
  omega

theorem countUp_toNat (c : Half) : (countUp c).toNat = min (c.toNat + 1) 0xFFFF := by
  simp only [countUp, BitVec.toNat_ofNat]
  omega

/-- The oldest pending operation runs, on the state without it. -/
theorem nextOp_cons {s : State} {op : HostOp} {rest : List HostOp} (h : s.host.pending = op :: rest) :
    nextOp s = some (op, { s with host := { s.host with pending := rest } }) := by
  simp [nextOp, h]

theorem nextOp_nil {s : State} (h : s.host.pending = []) : nextOp s = none := by
  simp [nextOp, h]

theorem nextOp_place (s : State) (op : HostOp) : nextOp (s.place op) = some (op, s) := rfl

end Sys2Proof.Machine
end

