-- ==== Sys2Proof/Laws/Exec.lean ====
section
/-!
SUPPORT. Everything an instruction can do to the parts of the state, said once.
-/
namespace Sys2Proof.Machine

/-- All that `exec` can answer, by the part of the state that changes: a CRC command the CRC unit, a retry command the retry
unit or, where it is illegal, the error record, CLR_ERR the record, REG_READ the answers, NOP nothing. -/
theorem exec_shape {i : Instr} {s t : State} (h : exec i s = .next t) :
    (isCrcCommand i = true ∧ ∃ u, t = s.setCrcUnit u) ∨
      (isRetryCommand i = true ∧ legalIn i s = true ∧ ∃ u, t = s.setRetryUnit u) ∨
      (isRtCommand i = true ∧ legalIn i s = false ∧ ∃ cause opc, t = cmdError cause opc s) ∨
      (i = .clrErr ∧ t = s.setErrors ErrorRecord.clear) ∨
      (∃ index, i = .regRead index ∧ t = s.answer (readRegister s index)) ∨
      (i = .nop ∧ t = s) := by
  cases i with
  | nop => cases h; simp
  | cfgAddr a => cases h; exact .inl ⟨rfl, _, rfl⟩
  | cfgBoBase v => cases h; exact .inr (.inl ⟨rfl, rfl, _, rfl⟩)
  | cfgBoCap v => cases h; exact .inr (.inl ⟨rfl, rfl, _, rfl⟩)
  | clrErr => cases h; simp
  | crcInit => cases h; exact .inl ⟨rfl, _, rfl⟩
  | crcLoad b => cases h; exact .inl ⟨rfl, _, rfl⟩
  | crcByte b => cases h; exact .inl ⟨rfl, _, rfl⟩
  | crcCheck b => cases h; exact .inl ⟨rfl, _, rfl⟩
  | regRead index => cases h; simp
  | rtStart m =>
    rcases inRtState_next h with ⟨hw, rfl⟩ | ⟨hw, rfl⟩
    · exact .inr (.inl ⟨rfl, by simp [legalIn, hw], _, rfl⟩)
    · exact .inr (.inr (.inl ⟨rfl, by simp [legalIn, hw], _, _, rfl⟩))
  | rtRetry =>
    rcases inRtState_next h with ⟨hw, rfl⟩ | ⟨hw, rfl⟩
    · exact .inr (.inl ⟨rfl, by simp [legalIn, hw], _, rfl⟩)
    · exact .inr (.inr (.inl ⟨rfl, by simp [legalIn, hw], _, _, rfl⟩))
  | rtAbort =>
    rcases inRtState_next h with ⟨hw, rfl⟩ | ⟨hw, rfl⟩
    · exact .inr (.inl ⟨rfl, by simp [legalIn, hw], _, rfl⟩)
    · exact .inr (.inr (.inl ⟨rfl, by simp [legalIn, hw], _, _, rfl⟩))
  | rtClear =>
    rcases inRtState_next h with ⟨hw, rfl⟩ | ⟨hw, rfl⟩
    · exact .inr (.inl ⟨rfl, by simp [legalIn, hw], _, rfl⟩)
    · exact .inr (.inr (.inl ⟨rfl, by simp [legalIn, hw], _, _, rfl⟩))
  | rtReport c =>
    by_cases hc : 9 ≤ c.toNat
    · have hn := (ofCode4_eq_none_iff c).mpr hc
      have hl : legalIn (.rtReport c) s = false := by
        simp [legalIn]; omega
      simp only [exec, execRtReport, hn] at h
      rcases inRtState_next h with ⟨-, rfl⟩ | ⟨-, rfl⟩ <;>
        exact .inr (.inr (.inl ⟨rfl, hl, _, _, rfl⟩))
    · obtain ⟨r, hr⟩ := Option.ne_none_iff_exists'.mp (mt (ofCode4_eq_none_iff c).mp hc)
      simp only [exec, execRtReport, hr] at h
      rcases inRtState_next h with ⟨hw, rfl⟩ | ⟨hw, rfl⟩
      · exact .inr (.inl ⟨rfl, by simp [legalIn, hw]; omega, _, rfl⟩)
      · exact .inr (.inr (.inl ⟨rfl, by simp [legalIn, hw], _, _, rfl⟩))

end Sys2Proof.Machine
end

