-- ==== Sys2Proof/Laws/PerInstr.lean ====
section
/-!
SUPPORT. Per-instruction facts about the syntax: the word an instruction is encoded as matches the row of the opcode table under its mnemonic.
-/
namespace Sys2Proof.Laws.TableRow

open Sys2Proof.Machine

/-- The word that carries the instruction is selected by a row of R64 with the instruction's mnemonic; a register read is no
command word (R74). -/
def Statement (i : Instr) : Prop :=
  match encode i with
  | .writeCmd w => ∃ r ∈ opcodeRows, r.mnemonic = i.mnemonic ∧ r.selects w = true
  | .readReg index => i = .regRead index
  | .reset => False
  | .resetDuringCmd _ => False

theorem nop : Statement .nop := by simp only [Statement, encode]; decide
theorem clrErr : Statement .clrErr := by simp only [Statement, encode]; decide
theorem crcInit : Statement .crcInit := by simp only [Statement, encode]; decide
theorem rtRetry : Statement .rtRetry := by simp only [Statement, encode]; decide
theorem rtAbort : Statement .rtAbort := by simp only [Statement, encode]; decide
theorem rtClear : Statement .rtClear := by simp only [Statement, encode]; decide
theorem regRead (index : RegIndex) : Statement (.regRead index) := rfl

/-- A row whose mask fixes all bits above the operand's field selects every word built for it. -/
theorem selects_commandWord (r : OpcodeRow) (opc : Byte) {n : Nat} (operand : BitVec n) (hn : n ≤ 24)
    (hmask : ∀ i < 32, r.mask.getLsbD i = decide (n ≤ i)) (hmatch : r.matchBits = commandWord opc 0#0) :
    r.selects (commandWord opc operand) = true := by
  simp only [OpcodeRow.selects, hmatch, beq_iff_eq]
  apply BitVec.eq_of_getLsbD_eq
  intro i hi
  rw [BitVec.getLsbD_and, hmask i hi, commandWord_getLsbD, commandWord_getLsbD]
  by_cases h24 : i < 24
  · by_cases hni : n ≤ i <;> simp [h24, hni]
  · simp [h24, show n ≤ i by omega]

theorem cfgAddr (a : Addr7) : Statement (.cfgAddr a) :=
  ⟨⟨"CFG_ADDR", .a, 0x01000000, 0xFFFFFF80⟩, by decide, rfl, selects_commandWord _ _ _ (by decide) (by decide) (by decide)⟩
theorem cfgBoBase (v : Half) : Statement (.cfgBoBase v) :=
  ⟨⟨"CFG_BO_BASE", .h, 0x02000000, 0xFFFF0000⟩, by decide, rfl, selects_commandWord _ _ _ (by decide) (by decide) (by decide)⟩
theorem cfgBoCap (v : Half) : Statement (.cfgBoCap v) :=
  ⟨⟨"CFG_BO_CAP", .h, 0x03000000, 0xFFFF0000⟩, by decide, rfl, selects_commandWord _ _ _ (by decide) (by decide) (by decide)⟩
theorem crcLoad (b : Byte) : Statement (.crcLoad b) :=
  ⟨⟨"CRC_LOAD", .b, 0x11000000, 0xFFFFFF00⟩, by decide, rfl, selects_commandWord _ _ _ (by decide) (by decide) (by decide)⟩
theorem crcByte (b : Byte) : Statement (.crcByte b) :=
  ⟨⟨"CRC_BYTE", .b, 0x12000000, 0xFFFFFF00⟩, by decide, rfl, selects_commandWord _ _ _ (by decide) (by decide) (by decide)⟩
theorem crcCheck (b : Byte) : Statement (.crcCheck b) :=
  ⟨⟨"CRC_CHECK", .b, 0x13000000, 0xFFFFFF00⟩, by decide, rfl, selects_commandWord _ _ _ (by decide) (by decide) (by decide)⟩
theorem rtStart (b : Byte) : Statement (.rtStart b) :=
  ⟨⟨"RT_START", .b, 0x20000000, 0xFFFFFF00⟩, by decide, rfl, selects_commandWord _ _ _ (by decide) (by decide) (by decide)⟩
theorem rtReport (c : Code4) : Statement (.rtReport c) :=
  ⟨⟨"RT_REPORT", .e, 0x21000000, 0xFFFFFFF0⟩, by decide, rfl, selects_commandWord _ _ _ (by decide) (by decide) (by decide)⟩

end Sys2Proof.Laws.TableRow
end

