-- ==== Sys2Proof/Laws/Port.lean ====
section
/-!
SUPPORT. What a command write, a port operation and a step do, said once.
-/
namespace Sys2Proof.Machine

theorem runCommand_of_ok {w : Word} {i : Instr} (h : decodeCommand w = .ok i) (s : State) :
    runCommand w s = exec i s := by
  simp [runCommand, h]

theorem runCommand_of_error {w : Word} {e : DecodeError} (h : decodeCommand w = .error e) (s : State) :
    runCommand w s = .next (cmdError (causeOf e) (opcField w) s) := by
  simp [runCommand, h]

/-- A word whose opcode has a format runs its command, or is RESERVED_BITS (R63). -/
theorem runCommand_of_check {w : Word} {f : Format} {i : Instr} (h : decodeCommand w = checkReserved f w i) (s : State) :
    runCommand w s =
      if reservedClear f w then exec i s else .next (cmdError .reservedBits (opcField w) s) := by
  cases hr : reservedClear f w
  · rw [runCommand_of_error (h.trans (checkReserved_of_set hr i))]
    simp [causeOf]
  · rw [runCommand_of_ok (h.trans (checkReserved_of_clear hr i))]
    simp

theorem step_of_cons {s : State} {op : HostOp} {rest : List HostOp} (h : s.host.pending = op :: rest) :
    step s = runOp op { s with host := { s.host with pending := rest } } := by
  simp [step, nextOp_cons h]

theorem step_of_nil {s : State} (h : s.host.pending = []) : step s = .next s := by
  simp [step, nextOp_nil h]

/-- A placed operation is the one the next step runs. -/
theorem step_place (s : State) (op : HostOp) : step (s.place op) = runOp op s := rfl

/-- The instruction placed for the host's questions is the one the next step runs. -/
theorem step_withFetchWord {nbits w : Nat} {op : HostOp} (h : tableOp nbits w = some op) (s : State) :
    step (s.withFetchWord nbits w) = runOp op s := by
  simp [State.withFetchWord, h, step_place]

end Sys2Proof.Machine
end

