-- ==== Sys2Proof/Laws/Procedures.lean ====
section
/-!
SUPPORT. What the shared procedures do, said once: a list of instructions issued in two parts, one pass of PERFORM's loop in each RT_STATE, and what an instruction that is no RT_ command leaves of a transaction.
-/
namespace Sys2Proof.Machine

theorem execAll_cons {i : Instr} {s t : State} (h : exec i s = .next t) (rest : List Instr) :
    execAll (i :: rest) s = execAll rest t := by
  simp [execAll, h]

/-- A list issued in two parts, where the first part completes. -/
theorem execAll_append {first : List Instr} {s t : State} (h : execAll first s = .next t) (second : List Instr) :
    execAll (first ++ second) s = execAll second t := by
  induction first generalizing s with
  | nil => cases h; rfl
  | cons i rest ih =>
    cases hi : exec i s with
    | next u =>
      rw [List.cons_append, execAll_cons hi]
      rw [execAll_cons hi] at h
      exact ih h
    | fault r => simp [execAll, hi] at h
    | refused r => simp [execAll, hi] at h

/-- Every instruction answers a next state (R14). -/
theorem exec_next (i : Instr) (s : State) : ∃ t, exec i s = .next t := by
  cases i <;>
    simp only [exec, execNop, execCfgAddr, execCfgBoBase, execCfgBoCap, execClrErr, execCrcInit, execCrcLoad, execCrcByte,
      execCrcCheck, execRtStart, execRtReport, execRtRetry, execRtAbort, execRtClear, execRegRead, inRtState] <;>
    (repeat' split) <;> exact ⟨_, rfl⟩

/-- An instruction that is no RT_ command is legal and leaves of the retry unit all but the configuration of the backoff. -/
theorem exec_of_not_rt {i : Instr} {s t : State} (hi : isRtCommand i = false) (h : exec i s = .next t) :
    legalIn i s = true ∧
      t.retryUnit = { s.retryUnit with boBase := t.retryUnit.boBase, boCap := t.retryUnit.boCap } := by
  cases i <;> simp [isRtCommand] at hi <;> cases h <;> exact ⟨rfl, rfl⟩

/-- Bit by bit, STATUS is the fields of R41 in their order. -/
theorem statusWord_getLsbD (s : State) (i : Nat) (h : i < 32) :
    (statusWord s).getLsbD i =
      (s.errors.errCause.toBits ++ flagBit s.errors.cmdErr
        ++ flagBit (chkFail s.crcUnit) ++ flagBit s.crcUnit.chkOk ++ flagBit s.crcUnit.chkDone
        ++ s.retryUnit.result.toCode4 ++ 0#1 ++ flagBit s.retryUnit.aborted ++ flagBit s.retryUnit.exhausted
        ++ flagBit (rtDone s.retryUnit) ++ flagBit (retryReq s.retryUnit) ++ flagBit (opReq s.retryUnit)
        ++ s.retryUnit.rtState.toBits).getLsbD i := by
  simp [statusWord, h]

/-- STATUS's request flags, as PERFORM reads them (R41). -/
theorem status_requests (s : State) :
    (readRegister s 0x1).getLsbD 2 = opReq s.retryUnit ∧ (readRegister s 0x1).getLsbD 3 = retryReq s.retryUnit ∧
      (readRegister s 0x1).getLsbD 4 = rtDone s.retryUnit := by
  have hr : readRegister s 0x1 = statusWord s := rfl
  rw [hr, statusWord_getLsbD s 2 (by omega), statusWord_getLsbD s 3 (by omega), statusWord_getLsbD s 4 (by omega)]
  simp only [BitVec.getLsbD_append]
  refine ⟨?_, ?_, ?_⟩ <;> simp [flagBit]

/-- In ISSUE the host's next outcome is reported. -/
theorem performLoop_of_issue {s : State} (h : s.retryUnit.rtState = .issue) (giveUp : Byte → Bool) (fuel : Nat)
    (r : ResultCode) (rest : List ResultCode) :
    performLoop giveUp (fuel + 1) (r :: rest) s =
      performLoop giveUp fuel rest (s.setRetryUnit (s.retryUnit.report r)) := by
  obtain ⟨hb, -, -⟩ := status_requests s
  have he : exec (.rtReport r.toCode4) s = .next (s.setRetryUnit (s.retryUnit.report r)) := by
    simp only [exec, execRtReport, inRtState_of_eq h, ofCode4_toCode4]
  simp only [performLoop, hb, opReq, h, he, beq_self_eq_true, if_true]

/-- In WAIT the host gives up or retries. -/
theorem performLoop_of_wait {s : State} (h : s.retryUnit.rtState = .wait) (giveUp : Byte → Bool) (fuel : Nat)
    (outcomes : List ResultCode) :
    performLoop giveUp (fuel + 1) outcomes s =
      performLoop giveUp fuel outcomes
        (s.setRetryUnit (if giveUp s.retryUnit.attempt then s.retryUnit.abort else s.retryUnit.retry)) := by
  obtain ⟨hb, hc, -⟩ := status_requests s
  have ha : exec .rtAbort s = .next (s.setRetryUnit s.retryUnit.abort) := inRtState_of_eq h
  have hr : exec .rtRetry s = .next (s.setRetryUnit s.retryUnit.retry) := inRtState_of_eq h
  have hn : (RtState.wait == RtState.issue) = false := rfl
  cases hg : giveUp s.retryUnit.attempt <;>
    simp only [performLoop, hb, hc, opReq, retryReq, h, hn, hg, ha, hr, beq_self_eq_true, Bool.false_eq_true, if_true,
      if_false]

/-- In DONE the host takes the result and acknowledges. -/
theorem performLoop_of_done {s : State} (h : s.retryUnit.rtState = .done) (giveUp : Byte → Bool) (fuel : Nat)
    (outcomes : List ResultCode) :
    performLoop giveUp (fuel + 1) outcomes s =
      some ((readRegister s 0x1).extractLsb' 8 4, s.setRetryUnit s.retryUnit.acknowledge) := by
  obtain ⟨hb, hc, hd⟩ := status_requests s
  have he : exec .rtClear s = .next (s.setRetryUnit s.retryUnit.acknowledge) := inRtState_of_eq h
  have hn : (RtState.done == RtState.issue) = false := rfl
  have hw : (RtState.done == RtState.wait) = false := rfl
  simp only [performLoop, hb, hc, hd, opReq, retryReq, rtDone, h, hn, hw, he, beq_self_eq_true, Bool.false_eq_true,
    if_true, if_false]

end Sys2Proof.Machine
end

