-- ==== Sys2Proof/Tests/Slice0.lean ====
section
/-!
SUPPORT. Tests: the checks of WellFormed and of the assembler refuse ill-formed terms, every encoding is read as the spec
writes it, one or two steps per instruction give the words of 95_test_vectors.md, and the hypotheses of every obligation are
met by concrete states and operands.
-/
namespace Sys2Proof.Tests

open Sys2Proof Sys2Proof.Machine

/-! ## Small states -/

/-- The reset state with another retry unit. -/
def withRetry (st : RtState) (attempt maxAtt : Byte) (r : ResultCode) : State :=
  { State.reset with retryUnit := { State.reset.retryUnit with rtState := st, attempt, maxAtt, result := r } }

/-- ISSUE of attempt `attempt` of `maxAtt`, the first one or after a transient failure. -/
def issue (attempt maxAtt : Byte) : State :=
  withRetry .issue attempt maxAtt (if attempt = 1 then .ok else .busIo)

/-- WAIT after attempt `attempt` of `maxAtt` failed with BUS_IO. -/
def wait (attempt maxAtt : Byte) : State := withRetry .wait attempt maxAtt .busIo

/-- DONE after one attempt with OK. -/
def done : State := withRetry .done 1 3 .ok

/-- The reset state with another running CRC and count. -/
def withCrc (crc : Byte) (count : Half) : State :=
  { State.reset with crcUnit := { State.reset.crcUnit with crc, count } }

/-- The reset state with an error recorded. -/
def withError : State :=
  { State.reset with errors := { cmdErr := true, errCause := .unknownOpcode, errOpc := 0xFF } }

/-- The reset state with operations pending. -/
def pending (ops : List HostOp) : State := { State.reset with host := { State.reset.host with pending := ops } }

/-- A register word after a command word. -/
def wordAfter (w : Word) (s : State) (index : RegIndex) : Option Word :=
  (nextState (runCommand w s)).map (readRegister · index)

/-! ## Ill-formed terms are refused -/

theorem test_wellFormed_unknown_opcode : wellFormedWord 0x05000000 = false := by decide
theorem test_wellFormed_reserved_bit : wellFormedWord 0x01000080 = false := by decide
theorem test_wellFormed_nop_operand : wellFormedWord 0x00000001 = false := by decide
theorem test_wellFormed_accepts : wellFormedWord 0x0100007F = true ∧ wellFormedWord 0x2100000F = true := by decide
theorem test_fits_imm8 : OperandField.imm8.fits 0x100 = false ∧ OperandField.imm8.fits 0xFF = true := by decide
theorem test_fits_imm16 : OperandField.imm16.fits 0x10000 = false ∧ OperandField.imm16.fits 0xFFFF = true := by decide
theorem test_fits_addr7 : OperandField.addr7.fits 0x80 = false ∧ OperandField.addr7.fits 0x7F = true := by decide
theorem test_fits_code4 : OperandField.code4.fits 0x10 = false ∧ OperandField.code4.fits 0xF = true := by decide
theorem test_fits_index : OperandField.index.fits 0x10 = false ∧ OperandField.index.fits 0xF = true := by decide
theorem test_packet_empty : wellFormedPacket [] = false ∧ wellFormedPacket [0x42] = true := by decide

/-! ## Words written out from R61, R62 and R64: OPC, the reserved bits, the operand -/

theorem test_decode_nop : decodeCommand (0b00000000#8 ++ 0b000000000000000000000000#24) = .ok .nop := by rfl
theorem test_decode_cfgAddr :
    decodeCommand (0b00000001#8 ++ 0b00000000000000000#17 ++ 0b1010011#7) = .ok (.cfgAddr 0x53) := by rfl
theorem test_decode_cfgBoBase :
    decodeCommand (0b00000010#8 ++ 0b00000000#8 ++ 0b1000000000000010#16) = .ok (.cfgBoBase 0x8002) := by rfl
theorem test_decode_cfgBoCap :
    decodeCommand (0b00000011#8 ++ 0b00000000#8 ++ 0b0100000000000001#16) = .ok (.cfgBoCap 0x4001) := by rfl
theorem test_decode_clrErr : decodeCommand (0b00000100#8 ++ 0b000000000000000000000000#24) = .ok .clrErr := by rfl
theorem test_decode_crcInit : decodeCommand (0b00010000#8 ++ 0b000000000000000000000000#24) = .ok .crcInit := by rfl
theorem test_decode_crcLoad :
    decodeCommand (0b00010001#8 ++ 0b0000000000000000#16 ++ 0b10000001#8) = .ok (.crcLoad 0x81) := by rfl
theorem test_decode_crcByte :
    decodeCommand (0b00010010#8 ++ 0b0000000000000000#16 ++ 0b11000010#8) = .ok (.crcByte 0xC2) := by rfl
theorem test_decode_crcCheck :
    decodeCommand (0b00010011#8 ++ 0b0000000000000000#16 ++ 0b10100100#8) = .ok (.crcCheck 0xA4) := by rfl
theorem test_decode_rtStart :
    decodeCommand (0b00100000#8 ++ 0b0000000000000000#16 ++ 0b11111110#8) = .ok (.rtStart 0xFE) := by rfl
theorem test_decode_rtReport :
    decodeCommand (0b00100001#8 ++ 0b00000000000000000000#20 ++ 0b1001#4) = .ok (.rtReport 0x9) := by rfl
theorem test_decode_rtRetry : decodeCommand (0b00100010#8 ++ 0b000000000000000000000000#24) = .ok .rtRetry := by rfl
theorem test_decode_rtAbort : decodeCommand (0b00100011#8 ++ 0b000000000000000000000000#24) = .ok .rtAbort := by rfl
theorem test_decode_rtClear : decodeCommand (0b00100100#8 ++ 0b000000000000000000000000#24) = .ok .rtClear := by rfl
theorem test_decode_regRead : decodeTableWord 8 0b1000 = some (.regRead 0x8) := by rfl

/-- What the host asks of a row: the word placed in the reset state is what the next step runs. -/
theorem test_withFetchWord : step (State.reset.withFetchWord 32 0x0100000A) = exec (.cfgAddr 0x0A) State.reset ∧
    step (State.reset.withFetchWord 8 0x6) = exec (.regRead 0x6) State.reset := by
  constructor <;> rfl

/-! ## One step each, with the words of 95_test_vectors.md -/

/-- V-CTL-1. -/
theorem test_nop : wordAfter 0x00000000 (wait 1 3) 0x1 = some 0x0000020A := by decide
/-- V-ERR-1. -/
theorem test_nop_reserved : wordAfter 0x00000001 State.reset 0x8 = some 0x00010002 := by decide
/-- V-CU-8. -/
theorem test_cfgAddr : wordAfter 0x0100007F State.reset 0x3 = some 0x0000FF7F := by decide
/-- V-CRC-4, address 0x29. -/
theorem test_cfgAddr_seed : wordAfter 0x01000029 State.reset 0x2 = some 0x0000BE00 := by decide
/-- Program P5, step 1. -/
theorem test_cfgBoBase : wordAfter 0x0200000A State.reset 0x6 = some 0xFFFF000A := by decide
/-- R42's BOCFG: the cap is the upper half. -/
theorem test_cfgBoCap : wordAfter 0x03000019 State.reset 0x6 = some 0x00190001 := by decide
/-- V-CTL-2. -/
theorem test_clrErr : wordAfter 0x04000000 withError 0x8 = some 0x00000000 := by decide
/-- V-ERR-5: a faulty CLR_ERR is recorded. -/
theorem test_clrErr_reserved : wordAfter 0x04000100 State.reset 0x8 = some 0x00010402 := by decide
/-- V-CU-3. -/
theorem test_crcInit : wordAfter 0x10000000 State.reset 0x2 = some 0x00000707 := by decide
/-- V-CU-4. -/
theorem test_crcLoad : wordAfter 0x1100004A State.reset 0x2 = some 0x0000074A := by decide
/-- V-CU-5. -/
theorem test_crcByte : wordAfter 0x1200001E (withCrc 0x6B 0) 0x2 = some 0x0000074C := by decide
/-- V-CRC-10: COUNT saturates while the CRC goes on. -/
theorem test_crcByte_saturates : wordAfter 0x12000001 (withCrc 0x00 0xFFFF) 0x4 = some 0x0000FFFF := by decide
/-- V-CU-6. -/
theorem test_crcCheck : wordAfter 0x13000042 (withCrc 0x42 4) 0x1 = some 0x00003000 := by decide
/-- V-CU-7. -/
theorem test_crcCheck_mismatch : wordAfter 0x13000043 (withCrc 0x42 4) 0x1 = some 0x00005000 := by decide
/-- V-RT-11. -/
theorem test_rtStart : wordAfter 0x20000003 State.reset 0x5 = some 0x00000301 := by decide
/-- V-RT-10. -/
theorem test_rtStart_zero : wordAfter 0x20000000 State.reset 0x1 = some 0x00000413 := by decide
/-- V-RT-4. -/
theorem test_rtReport_transient : wordAfter 0x21000002 (issue 1 255) 0x1 = some 0x0000020A := by decide
/-- Program P5, step 10: the last attempt fails. -/
theorem test_rtReport_exhausts : wordAfter 0x21000002 (issue 4 4) 0x1 = some 0x00000233 := by decide
/-- Program P4, step 3. -/
theorem test_rtRetry : wordAfter 0x22000000 (wait 1 3) 0x5 = some 0x00020302 := by decide
/-- V-ERR-24. -/
theorem test_rtRetry_bad_state : wordAfter 0x22000000 (issue 1 3) 0x1 = some 0x00038005 := by decide
/-- Program P6, step 5. -/
theorem test_rtAbort : wordAfter 0x23000000 (withRetry .wait 2 3 .stillMeasuring) 0x1 = some 0x00000353 := by decide
/-- V-ERR-26. -/
theorem test_rtAbort_bad_state : wordAfter 0x23000000 (issue 1 3) 0x8 = some 0x00012303 := by decide
/-- Program P4, step 7. -/
theorem test_rtClear : wordAfter 0x24000000 (withRetry .done 3 3 .ok) 0x5 = some 0x00000303 := by decide
/-- V-ERR-29. -/
theorem test_rtClear_bad_state : wordAfter 0x24000000 (wait 1 3) 0x1 = some 0x0003820A := by decide
/-- V-RD-1. -/
theorem test_regRead : (nextState (exec (.regRead 0x6) State.reset)).map (·.host.answers) = some [0xFFFF0001] := by
  decide
/-- R40: a reserved index reads 0. -/
theorem test_regRead_reserved : (nextState (exec (.regRead 0xF) withError)).map (·.host.answers) = some [0] := by
  decide
/-- V-RST-1, from ISSUE with an error recorded. -/
theorem test_reset : (nextState (step { issue 1 3 with errors := withError.errors, host := (pending [.reset]).host })) =
    some State.reset := by decide
/-- V-CRC-6. -/
theorem test_crc8 : crc8 0x6B [0x1E, 0x01, 0x2C, 0x01] = 0x42 := by
  have h₁ : crcStep 0x6B 0x1E = 0x4C := by decide
  have h₂ : crcStep 0x4C 0x01 = 0xE4 := by decide
  have h₃ : crcStep 0xE4 0x2C = 0x76 := by decide
  have h₄ : crcStep 0x76 0x01 = 0x42 := by decide
  simp only [crc8, h₁, h₂, h₃, h₄]
/-- V-CRC-1, row 0x4A. -/
theorem test_crcStep : crcStep 0x4A 0x55 = 0x5D ∧ crcStep 0x4A 0xAA = 0xAE := by decide
/-- V-BO-1, rows 1 and 3. -/
theorem test_backoff : backoffAt 0x0001 0xFFFF 16 = 0x8000 ∧ backoffAt 0x0001 0xFFFF 17 = 0xFFFF ∧
    backoffAt 0x0003 0xFFFF 8 = 0x0180 ∧ backoffAt 0x8000 0xFFFF 2 = 0xFFFF := by decide
/-- V-ERR-13: a word of an unknown opcode. -/
theorem test_unknown_opcode : wordAfter 0x80123456 State.reset 0x8 = some 0x00018001 := by decide
/-- V-ERR-20: RESERVED_CODE is recorded as 4. -/
theorem test_reserved_code : wordAfter 0x2100000F (issue 1 3) 0x8 = some 0x00012104 := by decide
/-- Program P8, step 2: the first error stays. -/
theorem test_second_error : wordAfter 0xFF000000 { withError with errors := ⟨true, .badState, 0x22⟩ } 0x8 =
    some 0x00012203 := by decide

/-! ## The hypotheses of the obligations are met -/

theorem witness_DecodeThenEncodeEveryWord :
    decodeCommand 0x0100007F = .ok (.cfgAddr 0x7F) ∧ decodeCommand 0x2100000F = .ok (.rtReport 0xF) := ⟨rfl, rfl⟩

theorem witness_DecodeSelectsTheTableRow :
    (∃ r ∈ opcodeRows, r.selects 0x2100000F = true) ∧ decodeCommand 0x2100000F = .ok (.rtReport 0xF) ∧
    (issue 1 3).retryUnit.rtState = .issue ∧ 9 ≤ (0x9 : Code4).toNat ∧ 9 ≤ (0xF : Code4).toNat := by
  refine ⟨by decide, rfl, rfl, by decide, by decide⟩

theorem witness_UnknownOpcodesAreErrors :
    (∀ opc ∈ [(0x05 : Byte), 0x0F, 0x14, 0x1F, 0x25, 0xFF],
      (0x05 ≤ opc.toNat ∧ opc.toNat ≤ 0x0F) ∨ (0x14 ≤ opc.toNat ∧ opc.toNat ≤ 0x1F) ∨ 0x25 ≤ opc.toNat) ∧
    (∀ opc ∈ [(0x00 : Byte), 0x04, 0x10, 0x13, 0x20, 0x24],
      ¬((0x05 ≤ opc.toNat ∧ opc.toNat ≤ 0x0F) ∨ (0x14 ≤ opc.toNat ∧ opc.toNat ≤ 0x1F) ∨ 0x25 ≤ opc.toNat)) := by
  decide

theorem witness_ReservedBitsAreErrors :
    (∃ r ∈ opcodeRows, (0x00800000 : Word).extractLsb' 24 8 = r.matchBits.extractLsb' 24 8 ∧
      (0x00800000 : Word).extractLsb' 0 24 &&& r.mask.extractLsb' 0 24 ≠ 0) ∧
    (∃ r ∈ opcodeRows, (0x21000010 : Word).extractLsb' 24 8 = r.matchBits.extractLsb' 24 8 ∧
      (0x21000010 : Word).extractLsb' 0 24 &&& r.mask.extractLsb' 0 24 ≠ 0) := by
  decide

theorem witness_StepRunsTheDecodedInstruction :
    (pending [.writeCmd 0x10000000]).host.pending = .writeCmd 0x10000000 :: [] ∧
    decodeCommand 0x10000000 = .ok .crcInit ∧
    (pending [.readReg 0x8, .reset]).host.pending = .readReg 0x8 :: [.reset] ∧
    (pending [.writeCmd 0xFF000000]).host.pending = .writeCmd 0xFF000000 :: [] ∧
    decodeCommand 0xFF000000 = .error .unknownOpcode ∧ decodeCommand 0x01000080 = .error .reservedBits ∧
    State.reset.host.pending = [] := ⟨rfl, rfl, rfl, rfl, rfl, rfl, rfl⟩

theorem witness_NopChangesNothing : (1 : BitVec 24) ≠ 0 ∧ (0x800000 : BitVec 24) ≠ 0 := by decide

theorem witness_ClrErrClearsTheRecord :
    (1 : BitVec 24) ≠ 0 ∧ withError.errors.cmdErr = true ∧ State.reset.errors.cmdErr = false ∧ State.reset.Clean := by
  decide

theorem witness_RegReadAnswersTheWord :
    exec (.regRead 0x0) State.reset = .next (State.reset.answer 0x43523801) := rfl

theorem witness_ReadMapGivesEachIndexItsWord :
    9 ≤ (0x9 : RegIndex).toNat ∧ 9 ≤ (0xF : RegIndex).toNat ∧
    exec (.regRead 0x9) State.reset = .next (State.reset.answer 0x00000000) := ⟨by decide, by decide, rfl⟩

theorem witness_ValidateSeededUsesTheConfiguredSeed : State.reset.crcUnit.Inv := by decide

/-- The first byte of V-CRC-6 as a payload, a packet of the checksum alone (S2), and the bits at the ends of a byte. -/
theorem witness_SingleBitErrorsAreDetected :
    (0x80 : Byte) ≠ 0x00 ∧ 0 < 8 ∧ 7 < 8 ∧
    validate ([] ++ 0x1E :: [0x4C]) 0x0A = some true ∧ validate ([0x1E] ++ 0x4C :: []) 0x0A = some true ∧
    validate ([] ++ 0x6B :: []) 0x0A = some true := by
  have h₁ : seedOf 0x0A = 0x6B := by decide
  have h₂ : crcStep 0x6B 0x1E = 0x4C := by decide
  have h₃ : crc8 (seedOf 0x0A) [0x1E] = 0x4C := by rw [h₁, crc8, h₂, crc8]
  refine ⟨by decide, by decide, by decide, congrArg (fun c => some (c == (0x4C : Byte))) h₃,
    congrArg (fun c => some (c == (0x4C : Byte))) h₃, congrArg (fun c => some (c == (0x6B : Byte))) h₁⟩

theorem witness_CfgAddrSetsAddressAndSeed :
    (1 : BitVec 17) ≠ 0 ∧ (0x10000 : BitVec 17) ≠ 0 ∧ State.reset.crcUnit.Inv := by decide

theorem witness_CrcInitBeginsFromTheSeed : (1 : BitVec 24) ≠ 0 ∧ (0x800000 : BitVec 24) ≠ 0 := by decide

theorem witness_CrcLoadBeginsFromItsOperand : (1 : BitVec 16) ≠ 0 ∧ (0x8000 : BitVec 16) ≠ 0 := by decide

theorem witness_CrcByteAbsorbsOneByte :
    (1 : BitVec 16) ≠ 0 ∧ (withCrc 0x00 0xFFFF).crcUnit.count = 0xFFFF ∧
    (withCrc 0x6B 0).crcUnit.crc = 0x6B ∧ (withCrc 0x6B 0).crcUnit.count = 0 := by decide

theorem witness_CrcCheckComparesTheChecksum :
    (1 : BitVec 16) ≠ 0 ∧ (0x8000 : BitVec 16) ≠ 0 ∧ (withCrc 0x42 4).crcUnit.crc = 0x42 := by decide

theorem witness_ClassificationIsFixedPerCode :
    9 ≤ (0x9 : Code4).toNat ∧ 9 ≤ (0xF : Code4).toNat ∧ (issue 1 3).retryUnit.rtState = .issue := by decide

/-- The first and the last k, a base above the cap, and a report in the first and in the last attempt but one. -/
theorem witness_BackoffLaw :
    (1 ≤ 1 ∧ 1 ≤ 254 ∧ 254 ≤ 254 ∧ 253 ≤ 253) ∧ (0x0032 : Half).toNat < (0x0064 : Half).toNat ∧
    ResultCode.busIo.classOf = .transient ∧
    ((issue 1 2).retryUnit.rtState = .issue ∧ 1 ≤ (issue 1 2).retryUnit.attempt.toNat ∧
      (issue 1 2).retryUnit.attempt.toNat < (issue 1 2).retryUnit.maxAtt.toNat) ∧
    ((issue 254 255).retryUnit.rtState = .issue ∧ 1 ≤ (issue 254 255).retryUnit.attempt.toNat ∧
      (issue 254 255).retryUnit.attempt.toNat < (issue 254 255).retryUnit.maxAtt.toNat) := by decide

theorem witness_RtCommandsAreLegalInOneState :
    (issue 1 3).retryUnit.rtState ≠ .idle ∧ State.reset.retryUnit.rtState ≠ .issue ∧
    (issue 1 3).retryUnit.rtState ≠ .wait ∧ (wait 1 3).retryUnit.rtState ≠ .done := by decide

theorem witness_RtStartBeginsATransaction :
    State.reset.retryUnit.rtState = .idle ∧ (0x01 : Byte) ≠ 0x00 ∧ (0xFF : Byte) ≠ 0x00 ∧
    done.retryUnit.rtState ≠ .idle ∧ (1 : BitVec 16) ≠ 0 := by decide

/-- A final code, a transient one with budget and without, a reserved code, and a state of the invariants in a later
attempt. -/
theorem witness_RtReportTakesTheOutcome :
    (issue 1 3).retryUnit.rtState = .issue ∧ ResultCode.ok.classOf ≠ .transient ∧
    ResultCode.coeffRead.classOf ≠ .transient ∧ ResultCode.busOpen.classOf = .transient ∧
    1 ≤ (issue 1 3).retryUnit.attempt.toNat ∧
    (issue 2 3).retryUnit.attempt.toNat < (issue 2 3).retryUnit.maxAtt.toNat ∧
    ¬ (issue 3 3).retryUnit.attempt.toNat < (issue 3 3).retryUnit.maxAtt.toNat ∧
    (wait 1 3).retryUnit.rtState ≠ .issue ∧ 9 ≤ (0x9 : Code4).toNat ∧ (1 : BitVec 20) ≠ 0 ∧
    State.reset.retryUnit.rtState = .idle ∧ (0xFF : Byte) ≠ 0 ∧ ResultCode.checksum.classOf = .fatal ∧
    (issue 2 3).Inv ∧ (issue 2 3).retryUnit.rtState = .issue := by
  refine ⟨rfl, by decide, by decide, rfl, by decide, by decide, by decide, by decide, by decide, by decide, rfl,
    by decide, rfl, ?_, rfl⟩
  decide

theorem witness_RtRetryBeginsTheNextAttempt :
    ((wait 1 2).retryUnit.rtState = .wait ∧
      (wait 1 2).retryUnit.attempt.toNat < (wait 1 2).retryUnit.maxAtt.toNat) ∧
    ((wait 254 255).retryUnit.rtState = .wait ∧
      (wait 254 255).retryUnit.attempt.toNat < (wait 254 255).retryUnit.maxAtt.toNat) ∧
    (issue 1 3).retryUnit.rtState ≠ .wait ∧ (1 : BitVec 24) ≠ 0 := by decide

theorem witness_RtAbortEndsTheTransaction :
    (wait 1 3).retryUnit.rtState = .wait ∧ (wait 1 3).Inv ∧ done.retryUnit.rtState ≠ .wait ∧ (1 : BitVec 24) ≠ 0 := by
  decide

theorem witness_RtClearAcknowledges :
    done.retryUnit.rtState = .done ∧ (wait 1 3).retryUnit.rtState ≠ .done ∧ (1 : BitVec 24) ≠ 0 := by decide

theorem witness_CfgBoBaseSetsTheBase :
    (1 : Byte) ≠ 0 ∧ (1 ≤ 1 ∧ 1 ≤ 254 ∧ 254 ≤ 254) ∧ (issue 1 2).retryUnit.rtState = .issue ∧
    ResultCode.stillMeasuring.classOf = .transient ∧ 1 ≤ (issue 1 2).retryUnit.attempt.toNat ∧
    (issue 1 2).retryUnit.attempt.toNat < (issue 1 2).retryUnit.maxAtt.toNat := by decide

theorem witness_CfgBoCapSetsTheCap :
    (1 : Byte) ≠ 0 ∧ (1 ≤ 1 ∧ 1 ≤ 254 ∧ 254 ≤ 254) ∧ (0x0000 : Half).toNat < (0x0001 : Half).toNat := by decide

/-- A transaction that exhausts its budget, one that a fatal code ends at once, one of a single attempt, and one with other
legal commands before, between and after its own. -/
theorem witness_TransactionContract :
    State.reset.retryUnit.rtState = .idle ∧
    ((0x03 : Byte) ≠ 0x00 ∧ (∀ r ∈ [ResultCode.busIo, .busOpen], r.classOf = .transient) ∧
      [ResultCode.busIo, .busOpen].length < (0x03 : Byte).toNat ∧ ResultCode.busIo.classOf = .transient ∧
      [ResultCode.busIo, .busOpen].length + 1 = (0x03 : Byte).toNat) ∧
    ((0xFF : Byte) ≠ 0x00 ∧ ([] : List ResultCode).length < (0xFF : Byte).toNat ∧
      ResultCode.checksum.classOf ≠ .transient) ∧
    ((0x01 : Byte) ≠ 0x00 ∧ ([] : List ResultCode).length < (0x01 : Byte).toNat ∧
      ([] : List ResultCode).length + 1 = (0x01 : Byte).toNat) ∧
    ([Instr.cfgAddr 0x0A, .rtStart 2, .nop, .rtReport 0x2, .cfgBoBase 7, .rtRetry, .crcInit, .rtReport 0x6, .clrErr].filter
        isRtCommand = .rtStart 2 :: reportAll ([.busIo] ++ [.checksum])) := by decide

theorem witness_TransactionsAreBounded :
    State.reset.retryUnit.rtState = .idle ∧ (∀ i ∈ [Instr.rtReport 0x2, .rtRetry, .nop], isStart i = false) ∧
    (issue 1 255).retryUnit.AttemptInv ∧ (issue 1 255).retryUnit.rtState ≠ .idle ∧
    (wait 1 255).retryUnit.AttemptInv ∧ done.retryUnit.AttemptInv ∧
    (nextState (exec .rtRetry (wait 1 3))).map (·.retryUnit.rtState) = some .issue ∧
    (wait 1 3).retryUnit.rtState ≠ .issue := by decide

/-- A host that never gives up and exhausts the budget, and one that gives up after the second attempt of four. -/
theorem witness_PerformReturnsTheResult :
    State.reset.retryUnit.rtState = .idle ∧
    ((0x02 : Byte) ≠ 0x00 ∧ (∀ r ∈ [ResultCode.busIo], r.classOf = .transient) ∧
      [ResultCode.busIo].length < (0x02 : Byte).toNat ∧ ResultCode.busOpen.classOf = .transient ∧
      [ResultCode.busIo].length + 1 = (0x02 : Byte).toNat) ∧
    (∀ k, 1 ≤ k → k ≤ [ResultCode.busIo].length → (fun _ : Byte => false) (BitVec.ofNat 8 k) = false) ∧
    ([ResultCode.busIo].length + 1 < (0x04 : Byte).toNat ∧
      (∀ k, 1 ≤ k → k ≤ [ResultCode.busIo].length → (fun b : Byte => b == 2) (BitVec.ofNat 8 k) = false) ∧
      (fun b : Byte => b == 2) (BitVec.ofNat 8 ([ResultCode.busIo].length + 1)) = true) := by
  refine ⟨rfl, by decide, fun _ _ _ => rfl, by decide, fun k h₁ h₂ => ?_, by decide⟩
  obtain rfl : k = 1 := Nat.le_antisymm h₂ h₁
  decide

theorem witness_UnitsShareOnlyTheErrorRecord :
    isRetryCommand (.rtReport 0xF) = true ∧ isRetryCommand (.cfgBoCap 0) = true ∧ isCrcCommand (.cfgAddr 0) = true ∧
    (nextState (exec (.rtReport 0xF) (issue 1 3))).isSome = true ∧
    (nextState (exec (.cfgAddr 0x7F) State.reset)).isSome = true ∧ (issue 1 3).retryUnit.rtState = .issue := by decide

theorem witness_CommandErrorRecordsTheFirst :
    State.reset.errors.cmdErr = false ∧ withError.errors.cmdErr = true ∧
    decodeCommand 0x05000000 = .error .unknownOpcode ∧ decodeCommand 0x22000000 = .ok .rtRetry ∧
    legalIn .rtRetry State.reset = false := ⟨rfl, rfl, rfl, rfl, rfl⟩

theorem witness_ErrorPriority :
    State.reset.Clean ∧ (issue 1 3).Clean ∧ State.reset.retryUnit.rtState = .idle ∧
    (issue 1 3).retryUnit.rtState = .issue := by decide

theorem witness_CommandErrorsArePrecise :
    legalIn (.rtReport 0x9) (issue 1 3) = false ∧ legalIn (.rtReport 0x8) (issue 1 3) = true ∧
    Instr.rtReport 0x8 ≠ .clrErr ∧ (nextState (exec .rtClear done)).isSome = true ∧
    (∀ i, decodeCommand 0x25000000 ≠ .ok i) := by
  refine ⟨by decide, by decide, by decide, by decide, fun i => ?_⟩
  rw [show decodeCommand 0x25000000 = .error .unknownOpcode from rfl]
  exact nofun

theorem witness_ResetSetsEveryElement : (issue 1 3).retryUnit.rtState = .issue := rfl

theorem witness_RegisterWordsAfterReset : 9 ≤ (0x9 : RegIndex).toNat ∧ 9 ≤ (0xF : RegIndex).toNat := by decide

/-- States of the invariants in each phase, with a step that answers a next state. -/
theorem witness_StepKeepsTheInvariants :
    (pending [.writeCmd 0x20000003]).Inv ∧ (nextState (step (pending [.writeCmd 0x20000003]))).isSome = true ∧
    (issue 2 3).Inv ∧ (wait 1 3).Inv ∧ done.Inv ∧ withError.Inv ∧
    (withRetry .done 0 0 .invalidArgument).Inv := by
  refine ⟨?_, ?_, ?_, ?_, ?_, ?_, ?_⟩ <;> decide

theorem witness_OnlyTheNamedCommandsWrite :
    exec (.cfgAddr 0x0A) State.reset =
      .next (State.reset.setCrcUnit { State.reset.crcUnit with devAddr := 0x0A, seed := 0x6B }) := rfl

/-- Two states that differ in what stands before the ports only. -/
theorem witness_OnlyTheBlocksStateIsObserved :
    State.reset ≠ pending [.reset] ∧ State.reset.crcUnit = (pending [.reset]).crcUnit ∧
    State.reset.retryUnit = (pending [.reset]).retryUnit ∧ State.reset.errors = (pending [.reset]).errors := by decide

end Sys2Proof.Tests
end

section
/-!
PROOFS. The layouts of the register words (10_state.md R41, R42): what each field reads, and the obligations that collect
them, StatusWordLayout and RegisterWordLayouts.
-/
namespace Sys2Proof.Machine

/-- Above the fields of a word, the zero extension leaves 0. -/
theorem extractLsb'_setWidth_above {w : Nat} (x : BitVec w) (v len : Nat) {start : Nat} (h : w ≤ start) :
    (x.setWidth v).extractLsb' start len = 0 := by
  ext i hi
  simp [BitVec.getLsbD_of_ge x (start + i) (by omega)]

/-- A register word of three fields and zeros above them: CRCREG, ADDRREG, RTREG and the lower part of ERRINFO. -/
theorem extractLsb'_threeFields {a b c : Nat} (x : BitVec a) (y : BitVec b) (z : BitVec c)
    (h : a + b + c ≤ 32) (len : Nat) :
    ((x ++ y ++ z).setWidth 32).extractLsb' 0 c = z ∧
    ((x ++ y ++ z).setWidth 32).extractLsb' c b = y ∧
    ((x ++ y ++ z).setWidth 32).extractLsb' (c + b) a = x ∧
    ((x ++ y ++ z).setWidth 32).extractLsb' (a + b + c) len = 0 := by
  refine ⟨?_, ?_, ?_, extractLsb'_setWidth_above _ _ _ le_rfl⟩
  · rw [BitVec.extractLsb'_setWidth_of_le (by omega), BitVec.extractLsb'_append_eq_right]
  · rw [BitVec.extractLsb'_setWidth_of_le (by omega), BitVec.extractLsb'_append_eq_of_le le_rfl, Nat.sub_self,
      BitVec.extractLsb'_append_eq_right]
  · rw [BitVec.extractLsb'_setWidth_of_le (by omega), BitVec.extractLsb'_append_eq_of_le (by omega),
      Nat.add_sub_cancel_left, BitVec.extractLsb'_append_eq_left]

/-! ## STATUS (R41) -/

@[simp] theorem statusWord_rtState (s : State) : (statusWord s).extractLsb' 0 2 = s.retryUnit.rtState.toBits := by
  rw [statusWord, BitVec.extractLsb'_setWidth_of_le (by omega), BitVec.extractLsb'_append_eq_right]

@[simp] theorem statusWord_result (s : State) : (statusWord s).extractLsb' 8 4 = s.retryUnit.result.toCode4 := by
  simp (disch := omega) only [statusWord, BitVec.extractLsb'_setWidth_of_le, BitVec.extractLsb'_append_eq_of_le,
    BitVec.extractLsb'_append_eq_right, Nat.reduceSub]

@[simp] theorem statusWord_errCause (s : State) : (statusWord s).extractLsb' 16 4 = s.errors.errCause.toBits := by
  simp (disch := omega) only [statusWord, BitVec.extractLsb'_setWidth_of_le, BitVec.extractLsb'_append_eq_of_le,
    BitVec.extractLsb'_eq_self, Nat.reduceSub]

/-- STATUS's request flags, each naming the one phase it stands for (R39). -/
theorem statusWord_phase (s : State) :
    ((statusWord s).getLsbD 2 = true ↔ s.retryUnit.rtState = .issue) ∧
    ((statusWord s).getLsbD 3 = true ↔ s.retryUnit.rtState = .wait) ∧
    ((statusWord s).getLsbD 4 = true ↔ s.retryUnit.rtState = .done) := by
  obtain ⟨hissue, hwait, hdone⟩ : (statusWord s).getLsbD 2 = opReq s.retryUnit ∧
      (statusWord s).getLsbD 3 = retryReq s.retryUnit ∧ (statusWord s).getLsbD 4 = rtDone s.retryUnit :=
    status_requests s
  rw [hissue, hwait, hdone]
  exact ⟨beq_iff_eq, beq_iff_eq, beq_iff_eq⟩

/-- STATUS's other single bits: how a transaction ended, the check's flags and CMD_ERR. -/
theorem statusWord_flags (s : State) :
    (statusWord s).getLsbD 5 = s.retryUnit.exhausted ∧ (statusWord s).getLsbD 6 = s.retryUnit.aborted ∧
    (statusWord s).getLsbD 7 = false ∧ (statusWord s).getLsbD 12 = s.crcUnit.chkDone ∧
    (statusWord s).getLsbD 13 = s.crcUnit.chkOk ∧ (statusWord s).getLsbD 14 = chkFail s.crcUnit ∧
    (statusWord s).getLsbD 15 = s.errors.cmdErr := by
  simp only [statusWord_getLsbD, Nat.reduceLT, BitVec.getLsbD_append]
  refine ⟨?_, ?_, ?_, ?_, ?_, ?_, ?_⟩ <;> simp [flagBit]

/-- Settles O13: STATUS field by field, from the lemmas above; the codes' numbers are the model's tables read out. -/
theorem statusWordLayout : Obligations.StatusWordLayout := by
  refine ⟨fun s => ?_, rfl, ⟨rfl, rfl, rfl, rfl⟩, ⟨rfl, rfl, rfl, rfl, rfl, rfl, rfl, rfl, rfl⟩,
    ⟨rfl, rfl, rfl, rfl, rfl⟩⟩
  obtain ⟨hissue, hwait, hdone⟩ := statusWord_phase s
  obtain ⟨hexhausted, haborted, hzero, hchkDone, hchkOk, hchkFail, hcmdErr⟩ := statusWord_flags s
  exact ⟨statusWord_rtState s, hissue, hwait, hdone, hexhausted, haborted, hzero, statusWord_result s, hchkDone, hchkOk,
    hchkFail, hcmdErr, statusWord_errCause s, extractLsb'_setWidth_above _ _ _ le_rfl⟩

/-! ## The other register words (R42) -/

theorem crcRegWord_fields (s : State) :
    (crcRegWord s).extractLsb' 0 8 = s.crcUnit.crc ∧ (crcRegWord s).extractLsb' 8 8 = s.crcUnit.seed ∧
    (crcRegWord s).extractLsb' 16 8 = s.crcUnit.chkRcvd ∧ (crcRegWord s).extractLsb' 24 8 = 0 :=
  extractLsb'_threeFields s.crcUnit.chkRcvd s.crcUnit.seed s.crcUnit.crc (by omega) 8

/-- ADDRREG's three fields are the read-address byte {DEV_ADDR, 1}, the zero bit 7 and DEV_ADDR. -/
theorem addrRegWord_fields (s : State) :
    (addrRegWord s).extractLsb' 0 7 = s.crcUnit.devAddr ∧ (addrRegWord s).getLsbD 7 = false ∧
    (addrRegWord s).extractLsb' 8 8 = s.crcUnit.devAddr ++ 1#1 ∧ (addrRegWord s).extractLsb' 16 16 = 0 := by
  obtain ⟨haddr, -, hread, hupper⟩ :=
    extractLsb'_threeFields (s.crcUnit.devAddr ++ 1#1) 0#1 s.crcUnit.devAddr (by omega) 16
  refine ⟨haddr, ?_, hread, hupper⟩
  simp only [addrRegWord, BitVec.getLsbD_setWidth, BitVec.getLsbD_append]
  simp

theorem rtRegWord_fields (s : State) :
    (rtRegWord s).extractLsb' 0 8 = s.retryUnit.attempt ∧ (rtRegWord s).extractLsb' 8 8 = s.retryUnit.maxAtt ∧
    (rtRegWord s).extractLsb' 16 4 = s.retryUnit.result.toCode4 ∧ (rtRegWord s).extractLsb' 20 12 = 0 :=
  extractLsb'_threeFields s.retryUnit.result.toCode4 s.retryUnit.maxAtt s.retryUnit.attempt (by omega) 12

theorem boCfgWord_fields (s : State) :
    (boCfgWord s).extractLsb' 0 16 = s.retryUnit.boBase ∧ (boCfgWord s).extractLsb' 16 16 = s.retryUnit.boCap :=
  ⟨BitVec.extractLsb'_append_eq_right, BitVec.extractLsb'_append_eq_left⟩

theorem countRegWord_toNat (s : State) : (countRegWord s).toNat = s.crcUnit.count.toNat :=
  BitVec.toNat_setWidth_of_le (by omega)

theorem boDelayWord_toNat (s : State) : (boDelayWord s).toNat = s.retryUnit.backoff.toNat :=
  BitVec.toNat_setWidth_of_le (by omega)

/-- ERRINFO is three fields, of which the uppermost is CMD_ERR above ERR_OPC. -/
theorem errInfoWord_fields (s : State) :
    (errInfoWord s).extractLsb' 0 4 = s.errors.errCause.toBits ∧ (errInfoWord s).extractLsb' 4 4 = 0 ∧
    (errInfoWord s).extractLsb' 8 8 = s.errors.errOpc ∧ (errInfoWord s).getLsbD 16 = s.errors.cmdErr ∧
    (errInfoWord s).extractLsb' 17 15 = 0 := by
  obtain ⟨hcause, hzero, -, hupper⟩ :=
    extractLsb'_threeFields (flagBit s.errors.cmdErr ++ s.errors.errOpc) 0#4 s.errors.errCause.toBits (by omega) 15
  refine ⟨hcause, hzero, ?_, ?_, hupper⟩
  · simp (disch := omega) only [errInfoWord, BitVec.extractLsb'_setWidth_of_le, BitVec.extractLsb'_append_eq_of_le,
      BitVec.extractLsb'_append_eq_right, Nat.reduceSub]
  · simp only [errInfoWord, BitVec.getLsbD_setWidth, BitVec.getLsbD_append]
    simp [flagBit]

/-- Settles O14: each register word by its own lemma, the reset words by evaluation. -/
theorem registerWordLayouts : Obligations.RegisterWordLayouts :=
  ⟨fun s => ⟨crcRegWord_fields s, addrRegWord_fields s, countRegWord_toNat s, rtRegWord_fields s, boCfgWord_fields s,
      boDelayWord_toNat s, errInfoWord_fields s, rfl⟩,
    rfl, rfl, rfl, rfl, rfl, rfl, rfl⟩

end Sys2Proof.Machine
end

section
/-!
PROOFS. Words that spell no command (30_encoding.md R63, R66, R68): which opcodes stand in no row of the table, which OPND
bits a row's mask fixes, and the obligations EveryWordHasOneDefinedEffect, UnknownOpcodesAreErrors and ReservedBitsAreErrors.
-/
namespace Sys2Proof.Machine

/-- Settles O7: the decoder answers an instruction or an error, and every instruction answers a next state. -/
theorem everyWordHasOneDefinedEffect : Obligations.EveryWordHasOneDefinedEffect := by
  intro w s
  cases hw : decodeCommand w with
  | ok i =>
    obtain ⟨t, ht⟩ := exec_next i s
    exact .inl ⟨i, t, rfl, ht, (runCommand_of_ok hw s).trans ht⟩
  | error e => exact .inr ⟨e, rfl, runCommand_of_error hw s⟩

/-! ## The row an opcode names (R64) -/

/-- The decoder checks a word with a row's opcode by the row's format. -/
theorem decode_of_row {r : OpcodeRow} (hr : r ∈ opcodeRows) {w : Word} (h : opcField w = opcField r.matchBits) :
    ∃ i, decodeCommand w = checkReserved r.format w i := by
  fin_cases hr
  · exact ⟨_, decode_nop h⟩
  · exact ⟨_, decode_cfgAddr h⟩
  · exact ⟨_, decode_cfgBoBase h⟩
  · exact ⟨_, decode_cfgBoCap h⟩
  · exact ⟨_, decode_clrErr h⟩
  · exact ⟨_, decode_crcInit h⟩
  · exact ⟨_, decode_crcLoad h⟩
  · exact ⟨_, decode_crcByte h⟩
  · exact ⟨_, decode_crcCheck h⟩
  · exact ⟨_, decode_rtStart h⟩
  · exact ⟨_, decode_rtReport h⟩
  · exact ⟨_, decode_rtRetry h⟩
  · exact ⟨_, decode_rtAbort h⟩
  · exact ⟨_, decode_rtClear h⟩

/-- R66's three ranges hold exactly the opcodes of no row. -/
theorem opcode_of_no_row_iff (opc : Byte) :
    ((0x05 ≤ opc.toNat ∧ opc.toNat ≤ 0x0F) ∨ (0x14 ≤ opc.toNat ∧ opc.toNat ≤ 0x1F) ∨ 0x25 ≤ opc.toNat) ↔
      ∀ r ∈ opcodeRows, opc ≠ opcField r.matchBits := by
  have hops : opcodeRows.map (opcField ·.matchBits) =
      [0x00, 0x01, 0x02, 0x03, 0x04, 0x10, 0x11, 0x12, 0x13, 0x20, 0x21, 0x22, 0x23, 0x24] := by decide
  have hno : (∀ r ∈ opcodeRows, opc ≠ opcField r.matchBits) ↔ opc ∉ opcodeRows.map (opcField ·.matchBits) := by
    simp [eq_comm]
  rw [hno, hops]
  simp only [List.mem_cons, List.not_mem_nil, or_false, ← BitVec.toNat_inj, BitVec.ofNat_eq_ofNat, BitVec.reduceToNat]
  omega

/-! ## The reserved bits of a row (R62, R63) -/

/-- How many low OPND bits the format's operand takes (R62). -/
def formatWidth : Format → Nat
  | .n => 0
  | .b => 8
  | .h => 16
  | .a => 7
  | .e => 4

theorem extractLsb'_eq_zero_iff (w : Word) (n k : Nat) :
    w.extractLsb' n k = 0#k ↔ ∀ i, n ≤ i → i < n + k → w.getLsbD i = false := by
  constructor
  · intro h i hn hk
    have hbit := congrArg (·.getLsbD (i - n)) h
    simpa [show i - n < k by omega, show n + (i - n) = i by omega] using hbit
  · intro h
    ext i hi
    simpa using h (n + i) (by omega) (by omega)

/-- The reserved bits are the OPND bits above the operand. -/
theorem reservedClear_iff (f : Format) (w : Word) :
    reservedClear f w = true ↔ ∀ i, formatWidth f ≤ i → i < 24 → w.getLsbD i = false := by
  cases f <;> simp only [reservedClear, beq_iff_eq, extractLsb'_eq_zero_iff] <;> rfl

/-- A row's mask fixes the OPND bits above the operand of its format. -/
theorem row_mask_getLsbD : ∀ r ∈ opcodeRows, ∀ i < 24, r.mask.getLsbD i = decide (formatWidth r.format ≤ i) := by
  decide

/-- The reserved bits of a row's format are the OPND bits its mask fixes. -/
theorem reservedClear_iff_masked {r : OpcodeRow} (hr : r ∈ opcodeRows) (w : Word) :
    reservedClear r.format w = true ↔ w.extractLsb' 0 24 &&& r.mask.extractLsb' 0 24 = 0 := by
  have hbit (i : Nat) (hi : i < 24) : (w.extractLsb' 0 24 &&& r.mask.extractLsb' 0 24).getLsbD i =
      (w.getLsbD i && decide (formatWidth r.format ≤ i)) := by
    simp [hi, row_mask_getLsbD r hr i hi]
  rw [reservedClear_iff]
  constructor
  · intro h
    apply BitVec.eq_of_getLsbD_eq
    intro i hi
    by_cases hf : formatWidth r.format ≤ i
    · simp [hbit i hi, h i hf hi]
    · simp [hbit i hi, hf]
  · intro h i hf hi
    simpa [h, hf] using (hbit i hi).symm

/-- A word with a row's opcode and a reserved bit set is RESERVED_BITS. -/
theorem runCommand_of_reserved {r : OpcodeRow} (hr : r ∈ opcodeRows) {w : Word} (h : opcField w = opcField r.matchBits)
    (hset : ¬ reservedClear r.format w = true) (s : State) :
    runCommand w s = .next (cmdError .reservedBits (opcField w) s) := by
  obtain ⟨i, hi⟩ := decode_of_row hr h
  rw [runCommand_of_check hi, if_neg hset]

/-- CFG_ADDR with any of its 17 reserved bits set is RESERVED_BITS. -/
theorem runCommand_cfgAddr_reserved {reserved : BitVec 17} (h : reserved ≠ 0) (a : Addr7) (s : State) :
    runCommand (0x01#8 ++ reserved ++ a) s = .next (cmdError .reservedBits 0x01 s) := by
  have hopc : opcField (0x01#8 ++ reserved ++ a) = 0x01#8 := parts_opcode _ _ _ rfl
  have hset : ¬ reservedClear .a (0x01#8 ++ reserved ++ a) = true := by
    rw [reservedClear_a_eq, parts_reserved, beq_iff_eq]
    exact h
  rw [runCommand_of_check (decode_cfgAddr hopc), if_neg hset, hopc]
  rfl

/-- Settles O5: an opcode of the three ranges is of no row, and any other is a row's, whose word with OPND 0 decodes. -/
theorem unknownOpcodesAreErrors : Obligations.UnknownOpcodesAreErrors := by
  refine ⟨fun opc opnd s hrange => ?_, fun opc hrange => ?_, by decide +kernel⟩
  · have hopc : opcField (opc ++ opnd) = opc := parts_opcode_n opc opnd
    have hno := (opcode_of_no_row_iff opc).mp hrange
    rw [runCommand_of_error (decode_unknown (by rwa [hopc])), hopc]
    rfl
  · rw [opcode_of_no_row_iff] at hrange
    push Not at hrange
    obtain ⟨r, hr, hopc⟩ := hrange
    obtain ⟨i, hi⟩ := decode_of_row hr ((parts_opcode_n opc 0#24).trans hopc)
    have hclear : reservedClear r.format (opc ++ 0#24) = true :=
      (reservedClear_iff_masked hr _).mpr (by rw [parts_reserved_n, BitVec.zero_and]; rfl)
    exact ⟨i, hi.trans (checkReserved_of_clear hclear i)⟩

/-- Settles O6: the mask's OPND bits are the reserved bits that the decoder checks, and CFG_ADDR's bit 7 is one of them. -/
theorem reservedBitsAreErrors : Obligations.ReservedBitsAreErrors := by
  refine ⟨fun w s r hr hopc hmasked => ?_, fun a s => ?_, fun cause opc s => ⟨rfl, rfl, rfl⟩⟩
  · exact runCommand_of_reserved hr hopc (mt (reservedClear_iff_masked hr w).mp hmasked) s
  · exact runCommand_cfgAddr_reserved (reserved := 1#17) (by decide) a s

end Sys2Proof.Machine
end

section
/-!
PROOFS. The pseudo-instructions VALIDATE and VALIDATE_SEEDED (30_encoding.md R71, R72) against the function validate (R94):
what a packet's bytes and its checksum leave in the CRC unit, and the obligations ValidateLeavesItsVerdictInChkOk and
ValidateSeededUsesTheConfiguredSeed.
-/
namespace Sys2Proof.Machine

/-- Absorbed one by one, bytes leave their crc8 in CRC, count COUNT up once each, and leave the rest of the unit as it was. -/
theorem foldl_absorb (data : List Byte) (u : CrcUnit) :
    data.foldl CrcUnit.absorb u = { u with crc := crc8 u.crc data, count := countUp^[data.length] u.count } := by
  induction data generalizing u with
  | nil => rfl
  | cons b rest ih => exact ih (u.absorb b)

/-- CRC_BYTE for each byte of a list absorbs the list. -/
theorem execAll_crcBytes (data : List Byte) (s : State) :
    execAll (data.map .crcByte) s = .next (s.setCrcUnit (data.foldl CrcUnit.absorb s.crcUnit)) := by
  induction data generalizing s with
  | nil => rfl
  | cons b rest ih => exact ih (s.setCrcUnit (s.crcUnit.absorb b))

theorem validate_concat (payload : List Byte) (check : Byte) (a : Addr7) :
    validate (payload ++ [check]) a = some (crc8 (seedOf a) payload == check) := by
  simp [validate]

theorem validateSeededProgram_concat (payload : List Byte) (check : Byte) :
    validateSeededProgram (payload ++ [check]) = some (.crcInit :: (payload.map .crcByte ++ [.crcCheck check])) := by
  simp [validateSeededProgram, wellFormedPacket]

theorem validateProgram_concat (payload : List Byte) (check : Byte) (a : Addr7) :
    validateProgram a (payload ++ [check]) =
      some (.cfgAddr a :: .crcInit :: (payload.map .crcByte ++ [.crcCheck check])) := by
  rw [validateProgram, validateSeededProgram_concat]
  rfl

/-- The CRC unit after CRC_INIT, a payload and its checksum byte (R99, R101, R102). -/
def CrcUnit.checkPacket (u : CrcUnit) (payload : List Byte) (check : Byte) : CrcUnit :=
  (payload.foldl CrcUnit.absorb (u.begin u.seed)).check check

@[simp] theorem CrcUnit.checkPacket_devAddr (u : CrcUnit) (payload : List Byte) (check : Byte) :
    (u.checkPacket payload check).devAddr = u.devAddr := by simp [checkPacket, foldl_absorb]
@[simp] theorem CrcUnit.checkPacket_seed (u : CrcUnit) (payload : List Byte) (check : Byte) :
    (u.checkPacket payload check).seed = u.seed := by simp [checkPacket, foldl_absorb]
@[simp] theorem CrcUnit.checkPacket_chkDone (u : CrcUnit) (payload : List Byte) (check : Byte) :
    (u.checkPacket payload check).chkDone = true := rfl
@[simp] theorem CrcUnit.checkPacket_chkOk (u : CrcUnit) (payload : List Byte) (check : Byte) :
    (u.checkPacket payload check).chkOk = (crc8 u.seed payload == check) := by simp [checkPacket, foldl_absorb]

/-- The expansion of VALIDATE_SEEDED checks the packet from the SEED it finds. -/
theorem execAll_validateSeeded (payload : List Byte) (check : Byte) (s : State) :
    execAll (.crcInit :: (payload.map .crcByte ++ [.crcCheck check])) s =
      .next (s.setCrcUnit (s.crcUnit.checkPacket payload check)) := by
  have hinit : exec .crcInit s = .next (s.setCrcUnit (s.crcUnit.begin s.crcUnit.seed)) := rfl
  rw [execAll_cons hinit, execAll_append (execAll_crcBytes payload _)]
  rfl

/-- The expansion of VALIDATE checks the packet from the seed of its address. -/
theorem execAll_validate (payload : List Byte) (check : Byte) (a : Addr7) (s : State) :
    execAll (.cfgAddr a :: .crcInit :: (payload.map .crcByte ++ [.crcCheck check])) s =
      .next (s.setCrcUnit ((s.crcUnit.configure a).checkPacket payload check)) := by
  have hcfg : exec (.cfgAddr a) s = .next (s.setCrcUnit (s.crcUnit.configure a)) := rfl
  rw [execAll_cons hcfg, execAll_validateSeeded]
  rfl

/-- CHK_OK is STATUS bit 13 (R41). -/
theorem status_chkOk (s : State) : (readRegister s 0x1).getLsbD 13 = s.crcUnit.chkOk := by
  obtain ⟨-, -, -, -, hchkOk, -, -⟩ := statusWord_flags s
  exact hchkOk

/-- Settles O19: CFG_ADDR sets the seed that validate starts from, and the rest checks the packet from it. -/
theorem validateLeavesItsVerdictInChkOk : Obligations.ValidateLeavesItsVerdictInChkOk := by
  refine ⟨validate_concat, validateProgram_concat, fun payload check a s => ?_, fun a => ⟨rfl, rfl, by decide⟩⟩
  refine ⟨_, _, validateProgram_concat payload check a, execAll_validate payload check a s, ?_, status_chkOk _, rfl⟩
  simp [validate_concat]

/-- Settles O20: where SEED is that of DEV_ADDR, the check from SEED is validate's. -/
theorem validateSeededUsesTheConfiguredSeed : Obligations.ValidateSeededUsesTheConfiguredSeed := by
  refine ⟨fun a packet => rfl, fun payload check s hinv => ?_⟩
  obtain ⟨hseed, -, -⟩ := hinv
  refine ⟨_, _, validateSeededProgram_concat payload check, execAll_validateSeeded payload check s, ?_,
    CrcUnit.checkPacket_seed _ _ _, CrcUnit.checkPacket_devAddr _ _ _⟩
  simp [validate_concat, hseed]

end Sys2Proof.Machine
end

section
/-!
PROOFS. The rules of the retry unit's single commands (40_retry.md R78, R80 to R87): what each command's words run, what
each RT_ command does in its one state, the backoff, and the obligations on one command each.
-/
namespace Sys2Proof.Machine

/-! ## The words of the retry unit's commands (R61 to R65) -/

/-- A word of opcode `opc` whose reserved bits are the field `reserved` runs its command exactly if the field is 0. -/
theorem runCommand_of_reserved_field {w : Word} {f : Format} {i : Instr} {n : Nat} {reserved : BitVec n} {opc : Byte}
    (hdecode : decodeCommand w = checkReserved f w i) (hopc : opcField w = opc)
    (hfield : reservedClear f w = (reserved == 0)) (s : State) :
    runCommand w s = if reserved = 0 then exec i s else .next (cmdError .reservedBits opc s) := by
  rw [runCommand_of_check hdecode, hopc, hfield]
  simp only [beq_iff_eq]

/-- The same for a command built from an operand that the word holds. -/
theorem runCommand_of_fields {w : Word} {f : Format} {n k : Nat} {reserved : BitVec n} {field operand : BitVec k}
    {opc : Byte} (build : BitVec k → Instr) (hdecode : decodeCommand w = checkReserved f w (build field))
    (hopc : opcField w = opc) (hoperand : field = operand) (hfield : reservedClear f w = (reserved == 0)) (s : State) :
    runCommand w s = if reserved = 0 then exec (build operand) s else .next (cmdError .reservedBits opc s) := by
  subst hoperand
  exact runCommand_of_reserved_field hdecode hopc hfield s

/-- A word of a command without operand, written out as its parts. -/
theorem runCommand_parts_n {opc : Byte} {reserved : BitVec 24} {i : Instr}
    (hdecode : decodeCommand (opc ++ reserved) = checkReserved .n (opc ++ reserved) i) (s : State) :
    runCommand (opc ++ reserved) s = if reserved = 0 then exec i s else .next (cmdError .reservedBits opc s) :=
  runCommand_of_reserved_field hdecode (parts_opcode_n opc reserved)
    (congrArg (· == 0#24) (parts_reserved_n opc reserved)) s

theorem runCommand_rtRetry (reserved : BitVec 24) (s : State) : runCommand (0x22#8 ++ reserved) s =
    if reserved = 0 then exec .rtRetry s else .next (cmdError .reservedBits 0x22 s) :=
  runCommand_parts_n (decode_rtRetry (parts_opcode_n 0x22#8 reserved)) s

theorem runCommand_rtAbort (reserved : BitVec 24) (s : State) : runCommand (0x23#8 ++ reserved) s =
    if reserved = 0 then exec .rtAbort s else .next (cmdError .reservedBits 0x23 s) :=
  runCommand_parts_n (decode_rtAbort (parts_opcode_n 0x23#8 reserved)) s

theorem runCommand_rtClear (reserved : BitVec 24) (s : State) : runCommand (0x24#8 ++ reserved) s =
    if reserved = 0 then exec .rtClear s else .next (cmdError .reservedBits 0x24 s) :=
  runCommand_parts_n (decode_rtClear (parts_opcode_n 0x24#8 reserved)) s

theorem runCommand_rtStart (reserved : BitVec 16) (m : Byte) (s : State) : runCommand (0x20#8 ++ reserved ++ m) s =
    if reserved = 0 then exec (.rtStart m) s else .next (cmdError .reservedBits 0x20 s) :=
  have hopc := parts_opcode 0x20#8 reserved m rfl
  runCommand_of_fields .rtStart (decode_rtStart hopc) hopc (parts_operand 0x20#8 reserved m)
    (congrArg (· == 0#16) (parts_reserved 0x20#8 reserved m)) s

theorem runCommand_rtReport (reserved : BitVec 20) (c : Code4) (s : State) : runCommand (0x21#8 ++ reserved ++ c) s =
    if reserved = 0 then exec (.rtReport c) s else .next (cmdError .reservedBits 0x21 s) :=
  have hopc := parts_opcode 0x21#8 reserved c rfl
  runCommand_of_fields .rtReport (decode_rtReport hopc) hopc (parts_operand 0x21#8 reserved c)
    (congrArg (· == 0#20) (parts_reserved 0x21#8 reserved c)) s

theorem runCommand_cfgBoBase (reserved : Byte) (v : Half) (s : State) : runCommand (0x02#8 ++ reserved ++ v) s =
    if reserved = 0 then exec (.cfgBoBase v) s else .next (cmdError .reservedBits 0x02 s) :=
  have hopc := parts_opcode 0x02#8 reserved v rfl
  runCommand_of_fields .cfgBoBase (decode_cfgBoBase hopc) hopc (parts_operand 0x02#8 reserved v)
    (congrArg (· == 0#8) (parts_reserved 0x02#8 reserved v)) s

theorem runCommand_cfgBoCap (reserved : Byte) (v : Half) (s : State) : runCommand (0x03#8 ++ reserved ++ v) s =
    if reserved = 0 then exec (.cfgBoCap v) s else .next (cmdError .reservedBits 0x03 s) :=
  have hopc := parts_opcode 0x03#8 reserved v rfl
  runCommand_of_fields .cfgBoCap (decode_cfgBoCap hopc) hopc (parts_operand 0x03#8 reserved v)
    (congrArg (· == 0#8) (parts_reserved 0x03#8 reserved v)) s

/-! ## Each RT_ command in its one state, and outside it (R75) -/

section
variable {s : State}

theorem exec_rtStart (h : s.retryUnit.rtState = .idle) (m : Byte) :
    exec (.rtStart m) s = .next (s.setRetryUnit (s.retryUnit.start m)) := inRtState_of_eq h

theorem exec_rtReport (h : s.retryUnit.rtState = .issue) (r : ResultCode) :
    exec (.rtReport r.toCode4) s = .next (s.setRetryUnit (s.retryUnit.report r)) := by
  simp only [exec, execRtReport, inRtState_of_eq h, ofCode4_toCode4]

theorem exec_rtReport_reserved (h : s.retryUnit.rtState = .issue) {c : Code4} (hc : 9 ≤ c.toNat) :
    exec (.rtReport c) s = .next (cmdError .reservedCode 0x21 s) := by
  simp only [exec, execRtReport, inRtState_of_eq h, (ofCode4_eq_none_iff c).mpr hc]
  rfl

theorem exec_rtRetry (h : s.retryUnit.rtState = .wait) :
    exec .rtRetry s = .next (s.setRetryUnit s.retryUnit.retry) := inRtState_of_eq h

theorem exec_rtAbort (h : s.retryUnit.rtState = .wait) :
    exec .rtAbort s = .next (s.setRetryUnit s.retryUnit.abort) := inRtState_of_eq h

theorem exec_rtClear (h : s.retryUnit.rtState = .done) :
    exec .rtClear s = .next (s.setRetryUnit s.retryUnit.acknowledge) := inRtState_of_eq h

theorem exec_rtStart_badState (h : s.retryUnit.rtState ≠ .idle) (m : Byte) :
    exec (.rtStart m) s = .next (cmdError .badState 0x20 s) := inRtState_of_ne h

theorem exec_rtReport_badState (h : s.retryUnit.rtState ≠ .issue) (c : Code4) :
    exec (.rtReport c) s = .next (cmdError .badState 0x21 s) := inRtState_of_ne h

theorem exec_rtRetry_badState (h : s.retryUnit.rtState ≠ .wait) :
    exec .rtRetry s = .next (cmdError .badState 0x22 s) := inRtState_of_ne h

theorem exec_rtAbort_badState (h : s.retryUnit.rtState ≠ .wait) :
    exec .rtAbort s = .next (cmdError .badState 0x23 s) := inRtState_of_ne h

theorem exec_rtClear_badState (h : s.retryUnit.rtState ≠ .done) :
    exec .rtClear s = .next (cmdError .badState 0x24 s) := inRtState_of_ne h

/-- A report of a final result ends the transaction (R82). -/
theorem exec_rtReport_final (h : s.retryUnit.rtState = .issue) {r : ResultCode} (hr : r.classOf ≠ .transient) :
    exec (.rtReport r.toCode4) s =
      .next { s with retryUnit := { s.retryUnit with result := r, rtState := .done } } := by
  rw [exec_rtReport h, RetryUnit.report_of_final hr]
  rfl

/-- A report of a transient result with budget left publishes the backoff and requests a retry (R82). -/
theorem exec_rtReport_transient (h : s.retryUnit.rtState = .issue) {r : ResultCode} (hr : r.classOf = .transient)
    (hlt : s.retryUnit.attempt.toNat < s.retryUnit.maxAtt.toNat) :
    exec (.rtReport r.toCode4) s = .next { s with retryUnit := { s.retryUnit with
      result := r, rtState := .wait,
      backoff := backoffAt s.retryUnit.boBase s.retryUnit.boCap s.retryUnit.attempt.toNat } } := by
  rw [exec_rtReport h, RetryUnit.report_of_transient hr hlt]
  rfl

/-- A report of a transient result in the last attempt exhausts the budget (R82). -/
theorem exec_rtReport_exhausted (h : s.retryUnit.rtState = .issue) {r : ResultCode} (hr : r.classOf = .transient)
    (hlt : ¬ s.retryUnit.attempt.toNat < s.retryUnit.maxAtt.toNat) :
    exec (.rtReport r.toCode4) s = .next { s with retryUnit := { s.retryUnit with
      result := r, rtState := .done, exhausted := true } } := by
  rw [exec_rtReport h, RetryUnit.report_of_exhausted hr hlt]
  rfl

/-- RT_START and the report of its first attempt. -/
theorem execAll_start_report (h : s.retryUnit.rtState = .idle) {m : Byte} (hm : m ≠ 0x00) (r : ResultCode) :
    execAll [.rtStart m, .rtReport r.toCode4] s = .next (s.setRetryUnit ((s.retryUnit.start m).report r)) := by
  have hissue : (s.setRetryUnit (s.retryUnit.start m)).retryUnit.rtState = .issue := by
    rw [State.setRetryUnit_retryUnit, RetryUnit.start_of_ne hm]
  rw [execAll_cons (exec_rtStart h m), execAll_cons (exec_rtReport hissue r)]
  rfl

end

theorem legalIn_rtReport_toCode4 (r : ResultCode) (s : State) :
    legalIn (.rtReport r.toCode4) s = true ↔ s.retryUnit.rtState = .issue := by
  have hle : r.toCode4.toNat ≤ 8 := by cases r <;> decide
  simp [legalIn, hle]

/-- Below the budget ATTEMPT + 1 does not wrap (R83). -/
theorem RetryUnit.retry_attempt_toNat {u : RetryUnit} (hlt : u.attempt.toNat < u.maxAtt.toNat) :
    u.retry.attempt.toNat = u.attempt.toNat + 1 := by
  rw [retry_attempt]
  bv_omega

/-! ## The obligations on one command each -/

/-- Settles O29: the table is the model's, read out code by code. -/
theorem classificationIsFixedPerCode : Obligations.ClassificationIsFixedPerCode :=
  ⟨⟨rfl, rfl, rfl, rfl, rfl, rfl, rfl, rfl, rfl⟩, ofCode4_toCode4, fun c => (ofCode4_eq_none_iff c).mpr,
    fun _ _ hc h => exec_rtReport_reserved h hc⟩

/-- Settles O31: each command's state check, and the legality test that reads the same state. -/
theorem rtCommandsAreLegalInOneState : Obligations.RtCommandsAreLegalInOneState :=
  ⟨fun m _ h => exec_rtStart_badState h m, fun c _ h => exec_rtReport_badState h c, fun _ => exec_rtRetry_badState,
    fun _ => exec_rtAbort_badState, fun _ => exec_rtClear_badState, fun _ _ => beq_iff_eq, legalIn_rtReport_toCode4,
    fun _ => beq_iff_eq, fun _ => beq_iff_eq, fun _ => beq_iff_eq, fun _ _ => ⟨_, rfl, rfl⟩, fun _ _ => ⟨_, rfl, rfl⟩,
    fun _ _ => ⟨rfl, rfl, rfl⟩⟩

/-- Settles O32: the two starts of R81; with a budget of 1 the first attempt is the last, so its report ends in DONE. -/
theorem rtStartBeginsATransaction : Obligations.RtStartBeginsATransaction := by
  refine ⟨fun m s h hm => ?_, fun s h => exec_rtStart h 0x00, fun m s h => exec_rtStart_badState h m,
    fun m s => runCommand_rtStart 0 m s, fun r m s hr => (runCommand_rtStart r m s).trans (if_neg hr), fun r s h => ?_,
    ⟨_, rfl, rfl, rfl, rfl, rfl⟩⟩
  · rw [exec_rtStart h, RetryUnit.start_of_ne hm]
    rfl
  · refine ⟨_, execAll_start_report h (by decide) r, ?_⟩
    rw [State.setRetryUnit_retryUnit, RetryUnit.start_of_ne (by decide)]
    cases r <;> rfl

/-- Settles O33: the report by class, with the start before it for the corner cases. -/
theorem rtReportTakesTheOutcome : Obligations.RtReportTakesTheOutcome := by
  refine ⟨fun r s h hr => exec_rtReport_final h hr, fun r s h hr _ hlt => exec_rtReport_transient h hr hlt,
    fun r s h hr hlt => exec_rtReport_exhausted h hr hlt, fun c s h => exec_rtReport_badState h c,
    fun c s h hc => exec_rtReport_reserved h hc, fun c s => runCommand_rtReport 0 c s,
    fun r c s hr => (runCommand_rtReport r c s).trans (if_neg hr), fun r s h hr => ?_, fun m r s h hm hr => ?_, rfl,
    fun s hinv h => ?_, ⟨_, rfl, rfl, rfl, rfl, rfl⟩⟩
  · refine ⟨_, execAll_start_report h (by decide) r, ?_⟩
    rw [State.setRetryUnit_retryUnit, RetryUnit.start_of_ne (by decide), RetryUnit.report_of_exhausted hr (lt_irrefl 1)]
    exact ⟨rfl, rfl, rfl⟩
  · refine ⟨_, execAll_start_report h hm r, ?_⟩
    rw [State.setRetryUnit_retryUnit, RetryUnit.start_of_ne hm, RetryUnit.report_of_final (by simp [hr])]
    exact ⟨rfl, rfl, rfl⟩
  · obtain ⟨-, -, houtcome, -⟩ := hinv
    obtain ⟨-, -, hunderway, -⟩ := houtcome
    exact ⟨_, exec_rtReport_final (r := .ok) h (by decide), rfl, (hunderway (.inl h)).1, rfl⟩

/-- Settles O34: the next attempt number is RT_RETRY's, which does not wrap below the budget. -/
theorem rtRetryBeginsTheNextAttempt : Obligations.RtRetryBeginsTheNextAttempt :=
  ⟨fun s h hlt => ⟨s.retryUnit.retry.attempt, RetryUnit.retry_attempt_toNat hlt, exec_rtRetry h⟩,
    fun _ => exec_rtRetry_badState, runCommand_rtRetry 0,
    fun r s hr => (runCommand_rtRetry r s).trans (if_neg hr), ⟨_, rfl, rfl, rfl⟩⟩

/-- Settles O35: in WAIT the invariants hold EXHAUSTED at 0 and RESULT at a transient error, and RT_ABORT leaves both. -/
theorem rtAbortEndsTheTransaction : Obligations.RtAbortEndsTheTransaction := by
  refine ⟨fun s => exec_rtAbort, fun s => exec_rtAbort_badState, runCommand_rtAbort 0,
    fun r s hr => (runCommand_rtAbort r s).trans (if_neg hr), fun s hinv h => ?_, ⟨_, rfl, rfl⟩⟩
  obtain ⟨-, -, houtcome, -⟩ := hinv
  obtain ⟨-, -, hunderway, htransient, -⟩ := houtcome
  exact ⟨_, exec_rtAbort h, (hunderway (.inr h)).1, htransient h⟩

/-- Settles O36: RT_CLEAR leaves IDLE behind, where a second one is BAD_STATE. -/
theorem rtClearAcknowledges : Obligations.RtClearAcknowledges :=
  ⟨fun _ => exec_rtClear, fun _ => exec_rtClear_badState, runCommand_rtClear 0,
    fun r s hr => (runCommand_rtClear r s).trans (if_neg hr),
    fun _ h => ⟨_, exec_rtClear h, exec_rtClear_badState (by simp)⟩, ⟨_, rfl, rfl⟩⟩

/-! ## The backoff (R80) -/

/-- With a base of 0 every backoff is 0. -/
theorem backoffAt_zero_base (cap : Half) (k : Nat) : backoffAt 0 cap k = 0 := by
  simp [backoffAt]

/-- With a cap of 0 every backoff is 0. -/
theorem backoffAt_zero_cap (base : Half) (k : Nat) : backoffAt base 0 k = 0 := by
  simp [backoffAt]

/-- The backoff is the cap from where the doubled base reaches it. -/
theorem backoffAt_of_cap_le {base cap : Half} {k : Nat} (h : cap.toNat ≤ base.toNat * 2 ^ (k - 1)) :
    backoffAt base cap k = cap := by
  apply BitVec.eq_of_toNat_eq
  rw [backoffAt_toNat, min_eq_right h]

theorem backoffAt_of_cap_lt {base cap : Half} (h : cap.toNat < base.toNat) (k : Nat) : backoffAt base cap k = cap :=
  backoffAt_of_cap_le (h.le.trans (Nat.le_mul_of_pos_right _ (Nat.two_pow_pos _)))

/-- From one attempt to the next the backoff doubles, up to the cap. -/
theorem backoffAt_succ_toNat (base cap : Half) {k : Nat} (hk : 1 ≤ k) :
    (backoffAt base cap (k + 1)).toNat = min (2 * (backoffAt base cap k).toNat) cap.toNat := by
  obtain ⟨j, rfl⟩ := Nat.exists_eq_add_of_le' hk
  have hdouble : base.toNat * 2 ^ (j + 1) = 2 * (base.toNat * 2 ^ j) := by ring
  simp only [backoffAt_toNat, Nat.add_sub_cancel, hdouble]
  omega

/-- Below 16 places the shift of the second form loses no bit of a 32-bit word. -/
theorem shiftedBase_toNat (base : Half) {n : Nat} (h : n < 16) :
    ((base.setWidth 32 : Word) <<< n).toNat = base.toNat * 2 ^ n := by
  have hpow : 2 ^ n ≤ 2 ^ 16 := Nat.pow_le_pow_right (by omega) h.le
  have hlt : base.toNat * 2 ^ n < 2 ^ 32 :=
    calc base.toNat * 2 ^ n ≤ base.toNat * 2 ^ 16 := Nat.mul_le_mul_left _ hpow
      _ < 2 ^ 16 * 2 ^ 16 := Nat.mul_lt_mul_of_pos_right base.isLt (by omega)
  rw [BitVec.toNat_shiftLeft, BitVec.toNat_setWidth_of_le (by omega), Nat.shiftLeft_eq, Nat.mod_eq_of_lt hlt]

/-- R80's two forms agree: a base that is not 0 passes every cap after 16 doublings, and before that the shift is exact. -/
theorem backoffAt_eq_backoffByShift (base cap : Half) (k : Nat) : backoffAt base cap k = backoffByShift base cap k := by
  unfold backoffByShift
  split
  case isTrue hzero => rw [hzero, backoffAt_zero_base]
  case isFalse hzero =>
  split
  case isTrue hlarge =>
    have hbase : 1 ≤ base.toNat := by bv_omega
    have hpow : 2 ^ 16 ≤ 2 ^ (k - 1) := Nat.pow_le_pow_right (by omega) hlarge
    exact backoffAt_of_cap_le (cap.isLt.le.trans (hpow.trans (Nat.le_mul_of_pos_left _ hbase)))
  case isFalse hsmall =>
    have hshift := shiftedBase_toNat base (not_le.mp hsmall)
    have hlimit : (cap.setWidth 32 : Word).toNat = cap.toNat := BitVec.toNat_setWidth_of_le (by omega)
    apply BitVec.eq_of_toNat_eq
    simp only [BitVec.le_def, hshift, hlimit, backoffAt_toNat]
    split <;> simp only [BitVec.extractLsb'_toNat, hshift, hlimit] <;> omega

/-- Settles O30: the exact form is the shift form, doubles up to the cap, and is what a transient report publishes. -/
theorem backoffLaw : Obligations.BackoffLaw :=
  ⟨fun base cap k _ _ => backoffAt_toNat base cap k, fun base cap k _ _ => backoffAt_eq_backoffByShift base cap k,
    fun base cap _ hk _ => backoffAt_succ_toNat base cap hk, fun _ _ k _ _ h => backoffAt_of_cap_lt h k,
    fun base k _ _ => backoffAt_zero_cap base k, fun _ _ h hr _ hlt => ⟨_, exec_rtReport_transient h hr hlt, rfl⟩⟩

/-- Settles O37: a base written in ISSUE is the one the next report computes the backoff from. -/
theorem cfgBoBaseSetsTheBase : Obligations.CfgBoBaseSetsTheBase := by
  refine ⟨fun v s => rfl, runCommand_cfgBoBase 0, fun r v s hr => (runCommand_cfgBoBase r v s).trans (if_neg hr),
    fun cap k _ _ => backoffAt_zero_base cap k, fun v s r h hr _ hlt => ?_, ⟨_, rfl, rfl⟩⟩
  have hreport := exec_rtReport_transient (s := s.setRetryUnit { s.retryUnit with boBase := v }) h hr hlt
  exact ⟨_, (execAll_cons (i := .cfgBoBase v) rfl _).trans (execAll_cons hreport []), rfl⟩

/-- Settles O38: the written cap bounds every backoff. -/
theorem cfgBoCapSetsTheCap : Obligations.CfgBoCapSetsTheCap :=
  ⟨fun _ _ => rfl, runCommand_cfgBoCap 0, fun r v s hr => (runCommand_cfgBoCap r v s).trans (if_neg hr),
    fun base k _ _ => backoffAt_zero_cap base k, fun _ _ k _ _ h => backoffAt_of_cap_lt h k, ⟨_, rfl, rfl⟩⟩

end Sys2Proof.Machine
end

section
/-!
PROOFS. The two units apart (40_retry.md R88): what a command of one leaves of the other and reads of it, and the obligation
UnitsShareOnlyTheErrorRecord.
-/
namespace Sys2Proof.Machine

theorem not_isRetryCommand_of_isCrcCommand {i : Instr} (h : isCrcCommand i = true) : isRetryCommand i = false := by
  cases i with
  | cfgAddr | crcInit | crcLoad | crcByte | crcCheck => rfl
  | _ => cases h

/-- A retry command leaves the CRC unit, whether it is accepted or not. -/
theorem exec_retry_crcUnit {i : Instr} {s t : State} (hi : isRetryCommand i = true) (h : exec i s = .next t) :
    t.crcUnit = s.crcUnit := by
  obtain ⟨hcrc, -⟩ | ⟨-, -, u, rfl⟩ | ⟨-, -, cause, opc, rfl⟩ | ⟨rfl, -⟩ | ⟨index, rfl, -⟩ | ⟨rfl, -⟩ := exec_shape h
  · rw [not_isRetryCommand_of_isCrcCommand hcrc] at hi
    cases hi
  · rfl
  · rfl
  all_goals cases hi

/-- A CRC command leaves the retry unit. -/
theorem exec_crc_retryUnit {i : Instr} {s t : State} (hi : isCrcCommand i = true) (h : exec i s = .next t) :
    t.retryUnit = s.retryUnit := by
  cases i with
  | cfgAddr | crcInit | crcLoad | crcByte | crcCheck => cases h; rfl
  | _ => cases hi

/-- A state check reads nothing of the CRC unit. -/
theorem inRtState_setCrcUnit {want : RtState} {opc : Byte} {s t t' : State}
    (h : inRtState want opc s (.next t) = .next t') (u : CrcUnit) :
    inRtState want opc (s.setCrcUnit u) (.next (t.setCrcUnit u)) = .next (t'.setCrcUnit u) := by
  obtain ⟨hw, rfl⟩ | ⟨hw, rfl⟩ := inRtState_next h
  · exact inRtState_of_eq hw
  · exact inRtState_of_ne hw

/-- A retry command reads nothing of the CRC unit. -/
theorem exec_retry_setCrcUnit {i : Instr} {s t : State} (hi : isRetryCommand i = true) (h : exec i s = .next t)
    (u : CrcUnit) : exec i (s.setCrcUnit u) = .next (t.setCrcUnit u) := by
  cases i with
  | cfgBoBase v => cases h; rfl
  | cfgBoCap v => cases h; rfl
  | rtStart m => exact inRtState_setCrcUnit h u
  | rtRetry => exact inRtState_setCrcUnit h u
  | rtAbort => exact inRtState_setCrcUnit h u
  | rtClear => exact inRtState_setCrcUnit h u
  | rtReport c =>
    cases hc : ResultCode.ofCode4 c <;> simp only [exec, execRtReport, hc] at h ⊢ <;> exact inRtState_setCrcUnit h u
  | _ => cases hi

/-- A CRC command reads nothing of the retry unit. -/
theorem exec_crc_setRetryUnit {i : Instr} {s t : State} (hi : isCrcCommand i = true) (h : exec i s = .next t)
    (u : RetryUnit) : exec i (s.setRetryUnit u) = .next (t.setRetryUnit u) := by
  cases i with
  | cfgAddr | crcInit | crcLoad | crcByte | crcCheck => cases h; rfl
  | _ => cases hi

/-- Settles O42: each unit's commands leave and ignore the other unit; CHECKSUM is a final report like any other. -/
theorem unitsShareOnlyTheErrorRecord : Obligations.UnitsShareOnlyTheErrorRecord :=
  ⟨fun _ _ _ => exec_retry_crcUnit, fun _ _ _ => exec_crc_retryUnit, fun _ _ _ u hi h => exec_retry_setCrcUnit hi h u,
    fun _ _ _ u hi h => exec_crc_setRetryUnit hi h u, fun _ _ => ⟨_, rfl, rfl⟩,
    fun _ h => ⟨_, exec_rtReport_final (r := .checksum) h (by decide), rfl, rfl⟩⟩

end Sys2Proof.Machine
end

section
/-!
PROOFS. The course of a transaction (40_retry.md R75, R76, R79): the steps the accepted RT_ commands make, what every other
instruction leaves of a transaction, the bounds on its commands, and the obligation TransactionsAreBounded.
-/
namespace Sys2Proof.Machine

/-! ## The steps of a transaction -/

/-- What an accepted RT_ command makes of the retry unit (R76, R81 to R85). -/
inductive RtStep : Instr → RetryUnit → RetryUnit → Prop where
  | start (m : Byte) {u : RetryUnit} (h : u.rtState = .idle) : RtStep (.rtStart m) u (u.start m)
  | report (r : ResultCode) {u : RetryUnit} (h : u.rtState = .issue) : RtStep (.rtReport r.toCode4) u (u.report r)
  | retry {u : RetryUnit} (h : u.rtState = .wait) : RtStep .rtRetry u u.retry
  | abort {u : RetryUnit} (h : u.rtState = .wait) : RtStep .rtAbort u u.abort
  | clear {u : RetryUnit} (h : u.rtState = .done) : RtStep .rtClear u u.acknowledge

/-- The retry unit without the backoff and its configuration: what a transaction's course depends on. -/
def RetryUnit.transaction (u : RetryUnit) : RetryUnit := { u with boBase := 0, boCap := 0, backoff := 0 }

@[simp] theorem RetryUnit.transaction_rtState (u : RetryUnit) : u.transaction.rtState = u.rtState := rfl

/-- Two units with the same transaction differ in the backoff and its configuration only. -/
theorem RetryUnit.eq_of_transaction_eq {u u' : RetryUnit} (h : u'.transaction = u.transaction) :
    u' = { u with boBase := u'.boBase, boCap := u'.boCap, backoff := u'.backoff } := by
  cases u
  cases u'
  cases h
  rfl

theorem RetryUnit.start_transaction {u u' : RetryUnit} (h : u'.transaction = u.transaction) (m : Byte) :
    (u'.start m).transaction = (u.start m).transaction := by
  rw [eq_of_transaction_eq h]
  unfold start
  split <;> rfl

theorem RetryUnit.report_transaction {u u' : RetryUnit} (h : u'.transaction = u.transaction) (r : ResultCode) :
    (u'.report r).transaction = (u.report r).transaction := by
  rw [eq_of_transaction_eq h]
  unfold report
  (repeat' split) <;> rfl

/-- A step is an accepted RT_ command that changes the retry unit alone. -/
theorem RtStep.accepted {i : Instr} {s : State} {u : RetryUnit} (h : RtStep i s.retryUnit u) :
    isRtCommand i = true ∧ legalIn i s = true ∧ exec i s = .next (s.setRetryUnit u) := by
  cases h with
  | start m h => exact ⟨rfl, beq_iff_eq.mpr h, exec_rtStart h m⟩
  | report r h => exact ⟨rfl, (legalIn_rtReport_toCode4 r s).mpr h, exec_rtReport h r⟩
  | retry h => exact ⟨rfl, beq_iff_eq.mpr h, exec_rtRetry h⟩
  | abort h => exact ⟨rfl, beq_iff_eq.mpr h, exec_rtAbort h⟩
  | clear h => exact ⟨rfl, beq_iff_eq.mpr h, exec_rtClear h⟩

/-- Every accepted RT_ command is a step. -/
theorem exists_rtStep {i : Instr} {s : State} (hrt : isRtCommand i = true) (hlegal : legalIn i s = true) :
    ∃ u, RtStep i s.retryUnit u := by
  cases i with
  | rtStart m => exact ⟨_, .start m (beq_iff_eq.mp hlegal)⟩
  | rtReport c =>
    obtain ⟨hissue, hc⟩ : s.retryUnit.rtState = .issue ∧ c.toNat ≤ 8 := by simpa [legalIn] using hlegal
    obtain ⟨r, hr⟩ := Option.ne_none_iff_exists'.mp (mt (ofCode4_eq_none_iff c).mp (by omega))
    rw [← toCode4_of_ofCode4 hr]
    exact ⟨_, .report r hissue⟩
  | rtRetry => exact ⟨_, .retry (beq_iff_eq.mp hlegal)⟩
  | rtAbort => exact ⟨_, .abort (beq_iff_eq.mp hlegal)⟩
  | rtClear => exact ⟨_, .clear (beq_iff_eq.mp hlegal)⟩
  | _ => cases hrt

/-- An instruction that is not legal is a command error and nothing else (R120). -/
theorem exec_of_not_legal {i : Instr} {s : State} (hlegal : legalIn i s = false) :
    ∃ cause opc, exec i s = .next (cmdError cause opc s) := by
  obtain ⟨t, h⟩ := exec_next i s
  rw [h]
  cases hrt : isRtCommand i with
  | false =>
    obtain ⟨hl, -⟩ := exec_of_not_rt hrt h
    cases hl.symm.trans hlegal
  | true =>
    obtain ⟨hcrc, -⟩ | ⟨-, hl, -⟩ | ⟨-, -, cause, opc, rfl⟩ | ⟨rfl, -⟩ | ⟨index, rfl, -⟩ | ⟨rfl, -⟩ := exec_shape h
    · have hno := not_isRetryCommand_of_isCrcCommand hcrc
      simp [isRetryCommand, hrt] at hno
    · cases hl.symm.trans hlegal
    · exact ⟨cause, opc, rfl⟩
    all_goals cases hrt

/-- All that an instruction does to the retry unit: an accepted RT_ command makes its step, and every other instruction
leaves the transaction as it is. -/
theorem exec_rtStep_or_transaction {i : Instr} {s t : State} (h : exec i s = .next t) :
    (isRtCommand i = true ∧ legalIn i s = true ∧ RtStep i s.retryUnit t.retryUnit) ∨
      (¬ (isRtCommand i = true ∧ legalIn i s = true) ∧ t.retryUnit.transaction = s.retryUnit.transaction) := by
  cases hrt : isRtCommand i with
  | false =>
    obtain ⟨-, hkeep⟩ := exec_of_not_rt hrt h
    exact .inr ⟨by simp, by rw [hkeep]; rfl⟩
  | true =>
    cases hlegal : legalIn i s with
    | true =>
      obtain ⟨u, hu⟩ := exists_rtStep hrt hlegal
      obtain ⟨-, -, hexec⟩ := hu.accepted
      cases h.symm.trans hexec
      exact .inl ⟨rfl, rfl, hu⟩
    | false =>
      obtain ⟨cause, opc, herror⟩ := exec_of_not_legal hlegal
      cases h.symm.trans herror
      exact .inr ⟨by simp, rfl⟩

/-! ## The bounds of a transaction (R79) -/

@[simp] theorem RetryUnit.report_attempt (u : RetryUnit) (r : ResultCode) : (u.report r).attempt = u.attempt := by
  unfold report
  (repeat' split) <;> rfl

@[simp] theorem RetryUnit.report_maxAtt (u : RetryUnit) (r : ResultCode) : (u.report r).maxAtt = u.maxAtt := by
  unfold report
  (repeat' split) <;> rfl

/-- A report ends the transaction, or asks for a retry that the budget allows. -/
theorem RetryUnit.report_rtState (u : RetryUnit) (r : ResultCode) :
    (u.report r).rtState = .done ∨ ((u.report r).rtState = .wait ∧ u.attempt.toNat < u.maxAtt.toNat) := by
  by_cases hr : r.classOf = .transient
  · by_cases hlt : u.attempt.toNat < u.maxAtt.toNat
    · exact .inr ⟨by rw [report_of_transient hr hlt], hlt⟩
    · exact .inl (by rw [report_of_exhausted hr hlt])
  · exact .inl (by rw [report_of_final hr])

/-- A transaction begins within its budget (R31). -/
theorem RetryUnit.start_attemptInv (u : RetryUnit) (m : Byte) : (u.start m).AttemptInv := by
  by_cases hm : m = 0x00
  · rw [hm, start_zero]
    simp [AttemptInv]
  · have hpos : 1 ≤ m.toNat := by bv_omega
    rw [start_of_ne hm]
    simp [AttemptInv, hpos]

/-- Every step keeps the attempt number within its budget (R31). -/
theorem RtStep.keeps_attemptInv {i : Instr} {u v : RetryUnit} (h : RtStep i u v) (hinv : u.AttemptInv) :
    v.AttemptInv := by
  obtain ⟨hunderway, hwait, hdone, -⟩ := hinv
  cases h with
  | start m h => exact u.start_attemptInv m
  | report r h =>
    have hin := hunderway (.inl h)
    obtain hphase | ⟨hphase, hlt⟩ := u.report_rtState r
    · simp [RetryUnit.AttemptInv, hphase, hin]
    · simp [RetryUnit.AttemptInv, hphase, hlt, hin]
  | retry h =>
    have hlt := hwait h
    refine ⟨fun _ => ?_, nofun, nofun, nofun⟩
    rw [RetryUnit.retry_maxAtt, RetryUnit.retry_attempt_toNat hlt]
    omega
  | abort h => exact ⟨by simp, nofun, fun _ => (hwait h).le, nofun⟩
  | clear h => exact ⟨by simp, nofun, nofun, fun _ => hdone h⟩

/-- How many reports the transaction can still accept. -/
def RetryUnit.reportsLeft (u : RetryUnit) : Nat :=
  match u.rtState with
  | .issue => u.maxAtt.toNat - u.attempt.toNat + 1
  | .wait => u.maxAtt.toNat - u.attempt.toNat
  | .idle => 0
  | .done => 0

/-- How many retries the transaction can still accept. -/
def RetryUnit.retriesLeft (u : RetryUnit) : Nat :=
  match u.rtState with
  | .issue => u.maxAtt.toNat - u.attempt.toNat
  | .wait => u.maxAtt.toNat - u.attempt.toNat
  | .idle => 0
  | .done => 0

/-! The three bounds of R79, in each phase. -/

theorem RetryUnit.left_of_idle {u : RetryUnit} (h : u.rtState = .idle) :
    u.reportsLeft = 0 ∧ u.retriesLeft = 0 ∧ u.commandsLeft = 0 := by
  simp [reportsLeft, retriesLeft, commandsLeft, h]

theorem RetryUnit.left_of_issue {u : RetryUnit} (h : u.rtState = .issue) :
    u.reportsLeft = u.maxAtt.toNat - u.attempt.toNat + 1 ∧ u.retriesLeft = u.maxAtt.toNat - u.attempt.toNat ∧
    u.commandsLeft = 2 * (u.maxAtt.toNat - u.attempt.toNat) + 2 := by
  simp [reportsLeft, retriesLeft, commandsLeft, h]

theorem RetryUnit.left_of_wait {u : RetryUnit} (h : u.rtState = .wait) :
    u.reportsLeft = u.maxAtt.toNat - u.attempt.toNat ∧ u.retriesLeft = u.maxAtt.toNat - u.attempt.toNat ∧
    u.commandsLeft = 2 * (u.maxAtt.toNat - u.attempt.toNat) + 1 := by
  simp [reportsLeft, retriesLeft, commandsLeft, h]

theorem RetryUnit.left_of_done {u : RetryUnit} (h : u.rtState = .done) :
    u.reportsLeft = 0 ∧ u.retriesLeft = 0 ∧ u.commandsLeft = 1 := by
  simp [reportsLeft, retriesLeft, commandsLeft, h]

/-- The three bounds of R79 each pay for the commands they count, in every step but RT_START. -/
theorem RtStep.bounds {i : Instr} {u v : RetryUnit} (h : RtStep i u v) (hi : isStart i = false) (hinv : u.AttemptInv) :
    (isReport i).toNat + v.reportsLeft ≤ u.reportsLeft ∧
    (isRetry i).toNat + v.retriesLeft ≤ u.retriesLeft ∧
    (isRtCommand i).toNat + v.commandsLeft ≤ u.commandsLeft := by
  obtain ⟨-, hwait, -, -⟩ := hinv
  cases h with
  | start m h => cases hi
  | report r h =>
    change 1 + _ ≤ _ ∧ 0 + _ ≤ _ ∧ 1 + _ ≤ _
    have hbefore := RetryUnit.left_of_issue h
    obtain hphase | ⟨hphase, hlt⟩ := u.report_rtState r
    · have hafter := RetryUnit.left_of_done hphase
      omega
    · have hafter := RetryUnit.left_of_wait hphase
      rw [RetryUnit.report_maxAtt, RetryUnit.report_attempt] at hafter
      omega
  | retry h =>
    change 0 + _ ≤ _ ∧ 1 + _ ≤ _ ∧ 1 + _ ≤ _
    have hlt := hwait h
    have hbefore := RetryUnit.left_of_wait h
    have hafter := RetryUnit.left_of_issue u.retry_rtState
    rw [RetryUnit.retry_maxAtt, RetryUnit.retry_attempt_toNat hlt] at hafter
    omega
  | abort h =>
    change 0 + _ ≤ _ ∧ 0 + _ ≤ _ ∧ 1 + _ ≤ _
    have hlt := hwait h
    have hbefore := RetryUnit.left_of_wait h
    have hafter := RetryUnit.left_of_done u.abort_rtState
    omega
  | clear h =>
    change 0 + _ ≤ _ ∧ 0 + _ ≤ _ ∧ 1 + _ ≤ _
    have hbefore := RetryUnit.left_of_done h
    have hafter := RetryUnit.left_of_idle u.acknowledge_rtState
    omega

theorem isRtCommand_of_isReport {i : Instr} (h : isReport i = true) : isRtCommand i = true := by
  cases i with
  | rtReport => rfl
  | _ => cases h

theorem isRtCommand_of_isRetry {i : Instr} (h : isRetry i = true) : isRtCommand i = true := by
  cases i with
  | rtRetry => rfl
  | _ => cases h

theorem acceptedCount_cons {p : Instr → Bool} {i : Instr} {s t : State} (h : exec i s = .next t) (rest : List Instr) :
    acceptedCount p (i :: rest) s = (p i && legalIn i s).toNat + acceptedCount p rest t := by
  cases hp : p i && legalIn i s <;> simp [acceptedCount, h, hp]

/-- A bound on a transaction that every step but RT_START keeps, paying for the commands `p` picks, bounds how many of them
any list without RT_START has accepted. -/
theorem acceptedCount_le {p : Instr → Bool} {bound : RetryUnit → Nat} (hp : ∀ i, p i = true → isRtCommand i = true)
    (htransaction : ∀ u, bound u.transaction = bound u)
    (hstep : ∀ i u v, RtStep i u v → isStart i = false → u.AttemptInv → (p i).toNat + bound v ≤ bound u)
    {is : List Instr} (his : ∀ i ∈ is, isStart i = false) {s : State} (hinv : s.retryUnit.AttemptInv) :
    acceptedCount p is s ≤ bound s.retryUnit := by
  induction is generalizing s with
  | nil => exact Nat.zero_le _
  | cons i rest ih =>
    obtain ⟨hi, hrest⟩ := List.forall_mem_cons.mp his
    obtain ⟨t, ht⟩ := exec_next i s
    rw [acceptedCount_cons ht]
    obtain ⟨-, hlegal, hrt⟩ | ⟨hno, hkeep⟩ := exec_rtStep_or_transaction ht
    · have hcount := ih hrest (hrt.keeps_attemptInv hinv)
      have hpaid := hstep i _ _ hrt hi hinv
      rw [hlegal, Bool.and_true]
      omega
    · have hinv' : t.retryUnit.transaction.AttemptInv := by rw [hkeep]; exact hinv
      have hcount := ih hrest hinv'
      have hsame : bound t.retryUnit = bound s.retryUnit := by rw [← htransaction, hkeep, htransaction]
      have hnot : (p i && legalIn i s) = false := by
        rw [Bool.eq_false_iff]
        intro h
        obtain ⟨hpi, hlegal⟩ := Bool.and_eq_true_iff.mp h
        exact hno ⟨hp i hpi, hlegal⟩
      rw [hnot, Bool.toNat_false]
      omega

section
variable {is : List Instr} (his : ∀ i ∈ is, isStart i = false) {s : State} (hinv : s.retryUnit.AttemptInv)
include his hinv

theorem accepted_reports_le : acceptedCount isReport is s ≤ s.retryUnit.reportsLeft := by
  refine acceptedCount_le (fun _ => isRtCommand_of_isReport) (fun _ => rfl) (fun i u v hstep hi hinv => ?_) his hinv
  obtain ⟨hreports, -, -⟩ := hstep.bounds hi hinv
  exact hreports

theorem accepted_retries_le : acceptedCount isRetry is s ≤ s.retryUnit.retriesLeft := by
  refine acceptedCount_le (fun _ => isRtCommand_of_isRetry) (fun _ => rfl) (fun i u v hstep hi hinv => ?_) his hinv
  obtain ⟨-, hretries, -⟩ := hstep.bounds hi hinv
  exact hretries

theorem accepted_rtCommands_le : acceptedCount isRtCommand is s ≤ s.retryUnit.commandsLeft := by
  refine acceptedCount_le (fun i hi => hi) (fun _ => rfl) (fun i u v hstep hi hinv => ?_) his hinv
  obtain ⟨-, -, hcommands⟩ := hstep.bounds hi hinv
  exact hcommands

end

/-- A transaction of budget m begins with m reports and m - 1 retries left; one of budget 0 with none. -/
theorem RetryUnit.start_left (u : RetryUnit) (m : Byte) :
    (u.start m).reportsLeft = m.toNat ∧ (u.start m).retriesLeft = m.toNat - 1 := by
  by_cases hm : m = 0x00
  · rw [hm, start_zero]
    exact ⟨rfl, rfl⟩
  · have hpos : 1 ≤ m.toNat := by bv_omega
    rw [start_of_ne hm]
    exact ⟨Nat.sub_add_cancel hpos, rfl⟩

theorem RetryUnit.commandsLeft_le (u : RetryUnit) :
    u.commandsLeft ≤ 2 * (u.maxAtt.toNat - u.attempt.toNat) + 2 := by
  cases hphase : u.rtState <;> simp [commandsLeft, hphase]

/-- Outside IDLE some RT_ command is legal, so a host can always bring the transaction on. -/
theorem exists_legal_rtCommand {s : State} (h : s.retryUnit.rtState ≠ .idle) :
    ∃ i, isRtCommand i = true ∧ legalIn i s = true := by
  cases hphase : s.retryUnit.rtState with
  | idle => exact absurd hphase h
  | issue => exact ⟨.rtReport 0x0, rfl, (legalIn_rtReport_toCode4 .ok s).mpr hphase⟩
  | wait => exact ⟨.rtRetry, rfl, beq_iff_eq.mpr hphase⟩
  | done => exact ⟨.rtClear, rfl, beq_iff_eq.mpr hphase⟩

/-- Only RT_START and RT_RETRY request an attempt. -/
theorem start_or_retry_of_issue {i : Instr} {s t : State} (h : exec i s = .next t)
    (hs : s.retryUnit.rtState ≠ .issue) (ht : t.retryUnit.rtState = .issue) : i = .rtRetry ∨ ∃ m, i = .rtStart m := by
  obtain ⟨-, -, hstep⟩ | ⟨-, hkeep⟩ := exec_rtStep_or_transaction h
  · generalize t.retryUnit = v at hstep ht
    cases hstep with
    | start m => exact .inr ⟨m, rfl⟩
    | retry => exact .inl rfl
    | report r h => exact absurd h hs
    | abort => cases ht
    | clear => cases ht
  · have hsame : t.retryUnit.rtState = s.retryUnit.rtState := by
      rw [← RetryUnit.transaction_rtState, hkeep, RetryUnit.transaction_rtState]
    exact absurd (hsame.symm.trans ht) hs

/-- Settles O40: RT_START leaves m reports and m - 1 retries, and each step after it pays for itself. -/
theorem transactionsAreBounded : Obligations.TransactionsAreBounded := by
  refine ⟨fun s m is h his => ?_, fun s is hinv _ his => ?_, fun s => exists_legal_rtCommand,
    fun i s t => start_or_retry_of_issue⟩
  · have hinv := s.retryUnit.start_attemptInv m
    obtain ⟨hreports, hretries⟩ := s.retryUnit.start_left m
    simp only [acceptedCount_cons (exec_rtStart h m), isReport, isRetry, Bool.false_and, Bool.toNat_false, Nat.zero_add]
    exact ⟨hreports ▸ accepted_reports_le his hinv, hretries ▸ accepted_retries_le his hinv⟩
  · exact (accepted_rtCommands_le his hinv).trans s.retryUnit.commandsLeft_le

end Sys2Proof.Machine
end

section
/-!
PROOFS. The contract of a transaction (40_retry.md R77): its commands as a run of steps, the end of that run, what other
instructions between the commands leave of it, and the obligation TransactionContract.
-/
namespace Sys2Proof.Machine

/-- The steps that the RT_ commands of a list make one after another, where each is accepted. -/
inductive RtRun : List Instr → RetryUnit → RetryUnit → Prop where
  | nil (u : RetryUnit) : RtRun [] u u
  | cons {i : Instr} {is : List Instr} {u v w : RetryUnit} (hstep : RtStep i u v) (hrest : RtRun is v w) :
      RtRun (i :: is) u w

/-- A run is what the list does when it is issued alone. -/
theorem RtRun.execAll_eq {is : List Instr} {u v : RetryUnit} (h : RtRun is u v) (s : State) :
    execAll is (s.setRetryUnit u) = .next (s.setRetryUnit v) := by
  induction h with
  | nil u => rfl
  | cons hstep hrest ih =>
    obtain ⟨-, -, hexec⟩ := RtStep.accepted (s := s.setRetryUnit _) hstep
    rw [execAll_cons hexec]
    exact ih

/-- A step goes the same way from every unit with the same transaction: no backoff steers it. -/
theorem RtStep.of_transaction_eq {i : Instr} {u v u' : RetryUnit} (h : RtStep i u v)
    (hsame : u'.transaction = u.transaction) : ∃ v', RtStep i u' v' ∧ v'.transaction = v.transaction := by
  have hphase : u'.rtState = u.rtState := by
    rw [← RetryUnit.transaction_rtState, hsame, RetryUnit.transaction_rtState]
  cases h with
  | start m h => exact ⟨_, .start m (hphase.trans h), RetryUnit.start_transaction hsame m⟩
  | report r h => exact ⟨_, .report r (hphase.trans h), RetryUnit.report_transaction hsame r⟩
  | retry h => exact ⟨_, .retry (hphase.trans h), congrArg RetryUnit.retry hsame⟩
  | abort h => exact ⟨_, .abort (hphase.trans h), congrArg RetryUnit.abort hsame⟩
  | clear h => exact ⟨_, .clear (hphase.trans h), congrArg RetryUnit.acknowledge hsame⟩

/-- A list whose RT_ commands make a run is accepted whole and leaves the transaction the run leaves, whatever other
instructions stand between them. -/
theorem RtRun.interleaved {is : List Instr} {u v : RetryUnit} (h : RtRun (is.filter isRtCommand) u v) {s : State}
    (hsame : s.retryUnit.transaction = u.transaction) : ∃ t, execAll is s = .next t ∧
      acceptedCount (fun _ => true) is s = is.length ∧ t.retryUnit.transaction = v.transaction := by
  induction is generalizing s u with
  | nil =>
    cases h
    exact ⟨s, rfl, rfl, hsame⟩
  | cons i rest ih =>
    have hnext : ∃ t w, exec i s = .next t ∧ legalIn i s = true ∧ RtRun (rest.filter isRtCommand) w v ∧
        t.retryUnit.transaction = w.transaction := by
      cases hrt : isRtCommand i with
      | false =>
        obtain ⟨t, ht⟩ := exec_next i s
        obtain ⟨hlegal, hkeep⟩ := exec_of_not_rt hrt ht
        rw [List.filter_cons_of_neg (by simp [hrt])] at h
        exact ⟨t, u, ht, hlegal, h, hkeep ▸ hsame⟩
      | true =>
        rw [List.filter_cons_of_pos hrt] at h
        obtain _ | ⟨hstep, hrest⟩ := h
        obtain ⟨w', hstep', hsame'⟩ := hstep.of_transaction_eq hsame
        obtain ⟨-, hlegal, hexec⟩ := hstep'.accepted
        exact ⟨_, _, hexec, hlegal, hrest, hsame'⟩
    obtain ⟨t, w, ht, hlegal, hrun, hsame'⟩ := hnext
    obtain ⟨t', ht', hcount, htransaction⟩ := ih hrun hsame'
    refine ⟨t', (execAll_cons ht rest).trans ht', ?_, htransaction⟩
    rw [acceptedCount_cons ht, hcount, hlegal, List.length_cons, Nat.add_comm]
    rfl

theorem reportAll_cons_concat (r : ResultCode) (fails : List ResultCode) (last : ResultCode) :
    reportAll (r :: (fails ++ [last])) = .rtReport r.toCode4 :: .rtRetry :: reportAll (fails ++ [last]) := by
  cases fails <;> rfl

/-- The unit at the end of a transaction that goes on from `u` with these failures and this last outcome. -/
def RetryUnit.ended (u : RetryUnit) (fails : List ResultCode) (last : ResultCode) : RetryUnit :=
  { u with
    rtState := .done, attempt := u.attempt + BitVec.ofNat 8 fails.length, result := last,
    exhausted := decide (last.classOf = .transient),
    backoff := if fails = [] then u.backoff else backoffAt u.boBase u.boCap (u.attempt.toNat + fails.length - 1) }

/-- The last report of a transaction, final or of the last attempt of the budget. -/
theorem RetryUnit.report_last {u : RetryUnit} {last : ResultCode} (hexhausted : u.exhausted = false)
    (hlast : last.classOf = .transient → u.attempt.toNat = u.maxAtt.toNat) : u.report last = u.ended [] last := by
  by_cases hr : last.classOf = .transient
  · rw [report_of_exhausted hr (hlast hr).not_lt]
    simp [ended, hr]
  · rw [report_of_final hr]
    simp [ended, hr, hexhausted]

/-- A failure with budget left and the retry after it lead to an end with one failure more. -/
theorem RetryUnit.ended_cons {u : RetryUnit} {r : ResultCode} (hr : r.classOf = .transient)
    (hlt : u.attempt.toNat < u.maxAtt.toNat) (fails : List ResultCode) (last : ResultCode) :
    (u.report r).retry.ended fails last = u.ended (r :: fails) last := by
  have hattempt : u.attempt + 1 + BitVec.ofNat 8 fails.length = u.attempt + BitVec.ofNat 8 (fails.length + 1) := by
    rw [Nat.add_comm, BitVec.ofNat_add, BitVec.add_assoc]
    rfl
  have hlast : (u.attempt + 1).toNat + fails.length - 1 = u.attempt.toNat + (fails.length + 1) - 1 := by
    rw [← retry_attempt, retry_attempt_toNat hlt]
    omega
  rw [report_of_transient hr hlt]
  cases fails with
  | nil => simp [ended, retry]
  | cons r' rest => simp only [ended, retry, reduceCtorEq, if_false, hattempt, hlast, List.length_cons (a := r)]

/-- The commands of R77 are a run, from the current attempt to the end. -/
theorem rtRun_reportAll {u : RetryUnit} {fails : List ResultCode} {last : ResultCode} (hissue : u.rtState = .issue)
    (hexhausted : u.exhausted = false) (hfails : ∀ r ∈ fails, r.classOf = .transient)
    (hbudget : u.attempt.toNat + fails.length ≤ u.maxAtt.toNat)
    (hlast : last.classOf = .transient → u.attempt.toNat + fails.length = u.maxAtt.toNat) :
    RtRun (reportAll (fails ++ [last])) u (u.ended fails last) := by
  induction fails generalizing u with
  | nil =>
    rw [← RetryUnit.report_last hexhausted hlast]
    exact .cons (.report last hissue) (.nil _)
  | cons r fails ih =>
    obtain ⟨hr, hfails⟩ := List.forall_mem_cons.mp hfails
    rw [List.length_cons] at hbudget hlast
    have hlt : u.attempt.toNat < u.maxAtt.toNat := by omega
    have hreport := RetryUnit.report_of_transient hr hlt
    have hwait : (u.report r).rtState = .wait := by rw [hreport]
    have hexhausted' : (u.report r).retry.exhausted = false := by rw [RetryUnit.retry_exhausted, hreport, hexhausted]
    have hsucc : (u.report r).retry.attempt.toNat = u.attempt.toNat + 1 := by
      rw [RetryUnit.retry_attempt_toNat (by simpa using hlt), RetryUnit.report_attempt]
    rw [List.cons_append, reportAll_cons_concat, ← RetryUnit.ended_cons hr hlt]
    refine .cons (.report r hissue) (.cons (.retry hwait) (ih rfl hexhausted' hfails ?_ fun h => ?_))
    · rw [hsucc, RetryUnit.retry_maxAtt, RetryUnit.report_maxAtt]
      omega
    · rw [hsucc, RetryUnit.retry_maxAtt, RetryUnit.report_maxAtt, ← hlast h]
      omega

/-- The end of a transaction of budget m, as R77 gives it. -/
theorem RetryUnit.start_ended {m : Byte} (hm : m ≠ 0x00) (u : RetryUnit) (fails : List ResultCode) (last : ResultCode) :
    (u.start m).ended fails last = { u with
      rtState := .done, maxAtt := m, attempt := BitVec.ofNat 8 (fails.length + 1), result := last,
      exhausted := decide (last.classOf = .transient), aborted := false,
      backoff := if fails = [] then 0 else backoffAt u.boBase u.boCap fails.length } := by
  have hattempt : 0x01 + BitVec.ofNat 8 fails.length = BitVec.ofNat 8 (fails.length + 1) := by
    rw [Nat.add_comm, BitVec.ofNat_add]
    rfl
  rw [start_of_ne hm]
  simp only [ended, hattempt, show (0x01 : Byte).toNat = 1 from rfl, Nat.add_sub_cancel_left]

/-- RT_START and the commands of R77 after it are a run from IDLE. -/
theorem rtRun_transaction {u : RetryUnit} {m : Byte} {fails : List ResultCode} {last : ResultCode}
    (hidle : u.rtState = .idle) (hm : m ≠ 0x00) (hfails : ∀ r ∈ fails, r.classOf = .transient)
    (hbudget : fails.length < m.toNat) (hlast : last.classOf = .transient → fails.length + 1 = m.toNat) :
    RtRun (.rtStart m :: reportAll (fails ++ [last])) u ((u.start m).ended fails last) := by
  refine .cons (.start m hidle) ?_
  rw [RetryUnit.start_of_ne hm]
  refine rtRun_reportAll rfl rfl hfails ?_ fun h => ?_
  · change 1 + fails.length ≤ m.toNat
    omega
  · exact (Nat.add_comm 1 fails.length).trans (hlast h)

/-- Settles O39: the transaction is a run, which other instructions between its commands do not disturb. -/
theorem transactionContract : Obligations.TransactionContract := by
  intro s m fails last hidle hm hfails hbudget hlast
  have hrun := rtRun_transaction hidle hm hfails hbudget hlast
  rw [RetryUnit.start_ended hm] at hrun
  refine ⟨hrun.execAll_eq s, fun is his => ?_⟩
  rw [← his] at hrun
  obtain ⟨t, ht, hcount, hsame⟩ := hrun.interleaved rfl
  have hattempt : (BitVec.ofNat 8 (fails.length + 1)).toNat = fails.length + 1 :=
    Nat.mod_eq_of_lt (by omega)
  refine ⟨t, ht, hcount, ?_⟩
  rw [RetryUnit.eq_of_transaction_eq hsame]
  exact ⟨rfl, rfl, hattempt, rfl, rfl, rfl⟩

end Sys2Proof.Machine
end

section
/-!
PROOFS. The algebra of the CRC (41_crc.md R92 to R97, R104, R105): the shift of R95 is linear and invertible, hence so
are L and its powers; what an error and a trailing checksum leave in crc8; and the obligations on the functions alone:
CrcStepIsEightShifts, Crc8Laws, SeedCoversTheReadAddressByte, ResidueOfAGoodPacketIsZero and SingleBitErrorsAreDetected.
-/
namespace Sys2Proof.Machine

/-! ## One shift -/

/-- The generator, XORed in exactly when bit 7 falls out (R90). -/
def generatorIf (b : Bool) : Byte := if b then 0x07 else 0x00

/-- A shift is two linear maps added: the shift proper, and the generator by bit 7. -/
theorem crcShift_eq_xor (t : Byte) : crcShift t = (t <<< 1) ^^^ generatorIf t.msb := by
  unfold crcShift generatorIf
  split
  · rfl
  · exact BitVec.xor_zero.symm

theorem generatorIf_xor (a b : Bool) : generatorIf (a ^^ b) = generatorIf a ^^^ generatorIf b := by
  cases a <;> cases b <;> rfl

theorem crcShift_xor (x y : Byte) : crcShift (x ^^^ y) = crcShift x ^^^ crcShift y := by
  simp only [crcShift_eq_xor, BitVec.msb_xor, generatorIf_xor, BitVec.shiftLeft_xor_distrib]
  ac_rfl

/-- The generator is odd, so bit 0 of a shift is the bit that fell out. -/
theorem crcShift_getLsbD_zero (t : Byte) : (crcShift t).getLsbD 0 = t.msb := by
  rw [crcShift_eq_xor]
  cases t.msb <;> simp [generatorIf]

/-- R93's argument for one shift: a 0 says that bit 7 was 0, and so that the other bits were. -/
theorem eq_zero_of_crcShift_eq_zero {t : Byte} (h : crcShift t = 0x00) : t = 0x00 := by
  have hmsb : t.msb = false := by
    rw [← crcShift_getLsbD_zero, h]
    rfl
  have hshift : t <<< 1 = 0x00 := by
    rw [crcShift_eq_xor, hmsb] at h
    exact BitVec.xor_zero.symm.trans h
  have hlt := BitVec.msb_eq_false_iff_two_mul_lt.mp hmsb
  bv_omega

theorem crcShift_injective : Function.Injective crcShift := by
  intro x y h
  have hxor : crcShift (x ^^^ y) = 0x00 := by
    rw [crcShift_xor, h]
    exact BitVec.xor_self
  exact BitVec.xor_eq_zero_iff.mp (eq_zero_of_crcShift_eq_zero hxor)

/-! ## The map L and crc_step (R93, R95) -/

theorem crcShifts_eq_iterate (n : Nat) (t : Byte) : crcShifts n t = crcShift^[n] t := by
  induction n generalizing t with
  | zero => rfl
  | succ n ih => exact ih (crcShift t)

theorem crcMap_eq_iterate : crcMap = crcShift^[8] := funext (crcShifts_eq_iterate 8)

@[simp] theorem crcMap_zero : crcMap 0x00 = 0x00 := rfl

theorem crcMap_xor (x y : Byte) : crcMap (x ^^^ y) = crcMap x ^^^ crcMap y := by
  rw [crcMap_eq_iterate]
  exact Function.Semiconj₂.iterate crcShift_xor 8 x y

theorem crcMap_injective : Function.Injective crcMap := by
  rw [crcMap_eq_iterate]
  exact crcShift_injective.iterate 8

/-- No power of L loses an error (R104). -/
theorem iterate_crcMap_ne_zero (k : Nat) {e : Byte} (he : e ≠ 0x00) : crcMap^[k] e ≠ 0x00 := by
  rw [← Function.iterate_fixed crcMap_zero k]
  exact (crcMap_injective.iterate k).ne he

theorem crcStep_xor (c₁ c₂ b₁ b₂ : Byte) : crcStep (c₁ ^^^ c₂) (b₁ ^^^ b₂) = crcStep c₁ b₁ ^^^ crcStep c₂ b₂ := by
  rw [crcStep, crcStep, crcStep, ← crcMap_xor]
  congr 1
  ac_rfl

@[simp] theorem crcStep_self (c : Byte) : crcStep c c = 0x00 := (congrArg crcMap BitVec.xor_self).trans crcMap_zero

/-- A step answers 0 only for the byte that equals the running value (R105). -/
theorem crcStep_eq_zero_iff (c b : Byte) : crcStep c b = 0x00 ↔ c = b := by
  rw [← crcMap_zero, crcStep, crcMap_injective.eq_iff]
  exact BitVec.xor_eq_zero_iff

/-- An error in the byte of a step goes through L. -/
theorem crcStep_xor_byte (c b e : Byte) : crcStep c (b ^^^ e) = crcStep c b ^^^ crcMap e := by
  simpa [crcStep] using crcStep_xor c 0x00 b e

/-- An error in the running value of a step goes through L. -/
theorem crcStep_xor_running (c b e : Byte) : crcStep (c ^^^ e) b = crcStep c b ^^^ crcMap e := by
  simpa [crcStep] using crcStep_xor c e b 0x00

/-! ## crc8 (R92, R93) -/

theorem crc8_eq_foldl (seed : Byte) (data : List Byte) : crc8 seed data = data.foldl crcStep seed := by
  induction data generalizing seed with
  | nil => rfl
  | cons b rest ih => exact ih (crcStep seed b)

theorem crc8_append (seed : Byte) (a b : List Byte) : crc8 seed (a ++ b) = crc8 (crc8 seed a) b := by
  simp only [crc8_eq_foldl, List.foldl_append]

theorem crc8_concat (seed : Byte) (data : List Byte) (b : Byte) :
    crc8 seed (data ++ [b]) = crcStep (crc8 seed data) b :=
  crc8_append seed data [b]

/-- An error in the running value goes through L once for each byte that follows. -/
theorem crc8_xor_seed (seed e : Byte) (data : List Byte) :
    crc8 (seed ^^^ e) data = crc8 seed data ^^^ crcMap^[data.length] e := by
  induction data generalizing seed e with
  | nil => rfl
  | cons b rest ih => rw [crc8, crcStep_xor_running, ih, crc8, List.length_cons, Function.iterate_succ_apply]

/-- An error in one byte goes through L once more than the bytes after it (R104). -/
theorem crc8_xor_byte (seed x e : Byte) (before after : List Byte) :
    crc8 seed (before ++ (x ^^^ e) :: after) = crc8 seed (before ++ x :: after) ^^^ crcMap^[after.length + 1] e := by
  rw [crc8_append, crc8_append, crc8, crc8, crcStep_xor_byte, crc8_xor_seed, Function.iterate_succ_apply]

/-! ## Packets (R94, R97, R105) -/

theorem seedOf_eq_crcStep (a : Addr7) : seedOf a = crcStep 0x00 (readAddressByte a) := rfl

/-- A packet passes exactly when the CRC over all of it, checksum byte included, is 0 (R105). -/
theorem validate_eq_residue {packet : List Byte} (h : packet ≠ []) (a : Addr7) :
    validate packet a = some (crc8 (seedOf a) packet == 0x00) := by
  obtain ⟨payload, check, rfl⟩ := packet.eq_nil_or_concat'.resolve_left h
  rw [validate_concat, crc8_concat, Option.some_inj, Bool.eq_iff_iff, beq_iff_eq, beq_iff_eq, crcStep_eq_zero_iff]

theorem oneBit_ne_zero {bit : Nat} (h : bit < 8) : 1#8 <<< bit ≠ 0x00 := by
  intro h0
  have hbit := congrArg (·.getLsbD bit) h0
  simp [h] at hbit

/-! ## The obligations on the functions -/

/-- Settles O15: the model's shift is the rule's, bit 7 being the most significant; the examples by evaluation. -/
theorem crcStepIsEightShifts : Obligations.CrcStepIsEightShifts := by
  refine ⟨fun c b => ?_, fun _ _ => rfl, rfl, rfl, rfl, rfl, rfl⟩
  have hshift : (fun t : Byte => if t.getLsbD 7 = true then (t <<< 1) ^^^ 0x07 else t <<< 1) = crcShift := by
    funext t
    rw [crcShift, BitVec.msb_eq_getLsbD_last]
  rw [hshift, ← crcMap_eq_iterate, crcStep]

/-- Settles O17: L is injective, and the bytes are finite. -/
theorem crc8Laws : Obligations.Crc8Laws :=
  ⟨fun _ => rfl, crc8_append, crcStep_xor, fun _ _ => rfl, crcMap_xor,
    Finite.injective_iff_bijective.mp crcMap_injective⟩

/-- Settles O18: crc8 from 0x00 takes the read-address byte first, which leaves the seed. -/
theorem seedCoversTheReadAddressByte : Obligations.SeedCoversTheReadAddressByte :=
  ⟨fun a => ⟨rfl, seedOf_eq_crcStep a⟩, ⟨rfl, rfl, rfl⟩, validate_concat⟩

/-- Settles O21: the last step is of the running value with itself. -/
theorem residueOfAGoodPacketIsZero : Obligations.ResidueOfAGoodPacketIsZero := by
  refine ⟨fun seed data => ?_, fun s => ⟨_, rfl, crcStep_self _, rfl, rfl⟩⟩
  rw [crc8_concat, crcStep_self]

/-- Settles O22: the good packet's residue is 0, so the changed packet's is what L's powers make of the flipped bit. -/
theorem singleBitErrorsAreDetected : Obligations.SingleBitErrorsAreDetected := by
  refine ⟨crc8_xor_byte, fun k e => iterate_crcMap_ne_zero k, fun a before after x bit hbit hpass => ?_⟩
  have hgood : crc8 (seedOf a) (before ++ x :: after) = 0x00 := by
    rwa [validate_eq_residue (by simp), Option.some_inj, beq_iff_eq] at hpass
  have hbad := iterate_crcMap_ne_zero (after.length + 1) (oneBit_ne_zero hbit)
  have hchanged : crc8 (seedOf a) (before ++ (x ^^^ 1#8 <<< bit) :: after) =
      crcMap^[after.length + 1] (1#8 <<< bit) := by
    rw [crc8_xor_byte, hgood]
    exact BitVec.zero_xor
  rw [validate_eq_residue (by simp), hchanged]
  exact congrArg some (beq_false_of_ne hbad)

end Sys2Proof.Machine
end

section
/-!
PROOFS. The CRC unit's commands (41_crc.md R98 to R102, 30_encoding.md R70): what each command's words run, COUNT over
many bytes, the verdict in STATUS, and the obligations Crc8IsTheFoldTheCommandsCompute and those on one command each.
-/
namespace Sys2Proof.Machine

/-! ## The words of the CRC unit's commands (R61 to R65) -/

theorem runCommand_cfgAddr (reserved : BitVec 17) (a : Addr7) (s : State) : runCommand (0x01#8 ++ reserved ++ a) s =
    if reserved = 0 then exec (.cfgAddr a) s else .next (cmdError .reservedBits 0x01 s) :=
  have hopc := parts_opcode 0x01#8 reserved a rfl
  runCommand_of_fields .cfgAddr (decode_cfgAddr hopc) hopc (parts_operand 0x01#8 reserved a)
    (congrArg (· == 0#17) (parts_reserved 0x01#8 reserved a)) s

theorem runCommand_crcInit (reserved : BitVec 24) (s : State) : runCommand (0x10#8 ++ reserved) s =
    if reserved = 0 then exec .crcInit s else .next (cmdError .reservedBits 0x10 s) :=
  runCommand_parts_n (decode_crcInit (parts_opcode_n 0x10#8 reserved)) s

/-- A word of a command with a byte operand, written out as its parts. -/
theorem runCommand_parts_b {opc : Byte} {reserved : BitVec 16} {b : Byte} (build : Byte → Instr)
    (hdecode : ∀ {w : Word}, opcField w = opc → decodeCommand w = checkReserved .b w (build (imm8Field w)))
    (s : State) : runCommand (opc ++ reserved ++ b) s =
      if reserved = 0 then exec (build b) s else .next (cmdError .reservedBits opc s) :=
  have hopc := parts_opcode opc reserved b rfl
  runCommand_of_fields build (hdecode hopc) hopc (parts_operand opc reserved b)
    (congrArg (· == 0#16) (parts_reserved opc reserved b)) s

theorem runCommand_crcLoad (reserved : BitVec 16) (b : Byte) (s : State) : runCommand (0x11#8 ++ reserved ++ b) s =
    if reserved = 0 then exec (.crcLoad b) s else .next (cmdError .reservedBits 0x11 s) :=
  runCommand_parts_b .crcLoad decode_crcLoad s

theorem runCommand_crcByte (reserved : BitVec 16) (b : Byte) (s : State) : runCommand (0x12#8 ++ reserved ++ b) s =
    if reserved = 0 then exec (.crcByte b) s else .next (cmdError .reservedBits 0x12 s) :=
  runCommand_parts_b .crcByte decode_crcByte s

theorem runCommand_crcCheck (reserved : BitVec 16) (b : Byte) (s : State) : runCommand (0x13#8 ++ reserved ++ b) s =
    if reserved = 0 then exec (.crcCheck b) s else .next (cmdError .reservedBits 0x13 s) :=
  runCommand_parts_b .crcCheck decode_crcCheck s

/-! ## The unit's operations -/

/-- Where SEED is that of DEV_ADDR, writing the same address again changes nothing (R98). -/
theorem CrcUnit.configure_devAddr_self {u : CrcUnit} (h : u.Inv) : u.configure u.devAddr = u := by
  obtain ⟨hseed, -, -⟩ := h
  rw [configure, ← hseed]

/-- COUNT after `n` bytes of a packet is `n`, up to 0xFFFF (R25). -/
theorem countUp_iterate_zero (n : Nat) : countUp^[n] 0x0000 = BitVec.ofNat 16 (min n 0xFFFF) := by
  induction n with
  | zero => rfl
  | succ n ih =>
    have hn : (BitVec.ofNat 16 (min n 0xFFFF)).toNat = min n 0xFFFF := Nat.mod_eq_of_lt (by omega)
    rw [Function.iterate_succ_apply', ih, countUp, hn]
    congr 1
    omega

/-- The expansion of CRC8 begins with the seed and absorbs the payload (R70). -/
theorem execAll_crc8Program (seed : Byte) (data : List Byte) (s : State) :
    execAll (crc8Program seed data) s = .next (s.setCrcUnit (data.foldl CrcUnit.absorb (s.crcUnit.begin seed))) := by
  have hload : exec (.crcLoad seed) s = .next (s.setCrcUnit (s.crcUnit.begin seed)) := rfl
  rw [crc8Program, execAll_cons hload, execAll_crcBytes]
  rfl

/-- After CRC_CHECK exactly one of CHK_OK and CHK_FAIL is set (R39). -/
@[simp] theorem chkFail_check (u : CrcUnit) (b : Byte) : chkFail (u.check b) = !(u.check b).chkOk := rfl

/-- ADDRREG is a function of DEV_ADDR alone (R42). -/
theorem addrReg_of_devAddr {s : State} {a : Addr7} (h : s.crcUnit.devAddr = a) :
    readRegister s 0x3 = (a ++ 1#1 ++ 0#1 ++ a).setWidth 32 := by
  subst h
  rfl

/-- CRCREG is a function of CHK_RCVD, SEED and CRC alone (R42). -/
theorem crcReg_of_fields {s : State} {rcvd seed crc : Byte} (hrcvd : s.crcUnit.chkRcvd = rcvd)
    (hseed : s.crcUnit.seed = seed) (hcrc : s.crcUnit.crc = crc) :
    readRegister s 0x2 = (rcvd ++ seed ++ crc).setWidth 32 := by
  subst hrcvd hseed hcrc
  rfl

/-- STATUS bits 14 to 12 are CHK_FAIL, CHK_OK and CHK_DONE (R41). -/
theorem status_check (s : State) : (readRegister s 0x1).extractLsb' 12 3 =
    flagBit (chkFail s.crcUnit) ++ flagBit s.crcUnit.chkOk ++ flagBit s.crcUnit.chkDone := by
  obtain ⟨-, -, -, hdone, hok, hfail, -⟩ := statusWord_flags s
  change (statusWord s).extractLsb' 12 (1 + 1 + 1) = _
  ext i hi
  simp only [BitVec.getElem_extractLsb', BitVec.getElem_append]
  interval_cases i
  · simpa [flagBit] using hdone
  · simpa [flagBit] using hok
  · simpa [flagBit] using hfail

/-- STATUS bits 14 to 12 after CRC_CHECK: a match or a mismatch (R102). -/
theorem status_check_after_check (s : State) (b : Byte) :
    (readRegister (s.setCrcUnit (s.crcUnit.check b)) 0x1).extractLsb' 12 3 =
      if s.crcUnit.crc = b then 0b011#3 else 0b101#3 := by
  rw [status_check, State.setCrcUnit_crcUnit, chkFail_check, CrcUnit.check_chkOk, CrcUnit.check_chkDone]
  split
  next h => rw [beq_iff_eq.mpr h]; rfl
  next h => rw [beq_false_of_ne h]; rfl

/-! ## The obligations on the commands -/

/-- Settles O16: the fold is crc8's recursion, and the expansion absorbs the payload from the seed. -/
theorem crc8IsTheFoldTheCommandsCompute : Obligations.Crc8IsTheFoldTheCommandsCompute := by
  refine ⟨crc8_eq_foldl, fun _ _ => rfl, fun seed data s => ?_, fun s => ?_⟩
  · rw [execAll_crc8Program, foldl_absorb, CrcUnit.begin_count, countUp_iterate_zero]
    rfl
  · obtain ⟨hcrc, -, -, -⟩ := crcRegWord_fields s
    exact hcrc

/-- Settles O23: the rewrite clause from the unit's invariant, the words from their parts. -/
theorem cfgAddrSetsAddressAndSeed : Obligations.CfgAddrSetsAddressAndSeed :=
  ⟨fun _ _ => rfl, runCommand_cfgAddr 0, fun r a s hr => (runCommand_cfgAddr r a s).trans (if_neg hr), ⟨rfl, rfl⟩,
    fun s hinv => congrArg (fun u => Host.Outcome.next (s.setCrcUnit u)) (CrcUnit.configure_devAddr_self hinv),
    fun s => ⟨_, runCommand_cfgAddr 0 0x0A s, rfl, rfl, (addrReg_of_devAddr (a := 0x0A) rfl).trans rfl⟩⟩

/-- Settles O24: CRC_INIT begins from SEED, which it leaves, so that a second one begins the same. -/
theorem crcInitBeginsFromTheSeed : Obligations.CrcInitBeginsFromTheSeed :=
  ⟨fun _ => rfl, runCommand_crcInit 0, fun r s hr => (runCommand_crcInit r s).trans (if_neg hr), fun _ => rfl,
    ⟨_, rfl, rfl⟩,
    fun _ => ⟨_, rfl, rfl, (crcReg_of_fields (rcvd := 0x00) (seed := 0x6B) (crc := 0x6B) rfl rfl rfl).trans rfl⟩⟩

/-- Settles O25: CRC_LOAD is CRC_INIT with its operand for SEED, and seed_of is one step from 0x00. -/
theorem crcLoadBeginsFromItsOperand : Obligations.CrcLoadBeginsFromItsOperand :=
  ⟨fun _ _ => rfl, runCommand_crcLoad 0, fun r b s hr => (runCommand_crcLoad r b s).trans (if_neg hr), fun _ => rfl,
    fun a _ => ⟨_, rfl, (seedOf_eq_crcStep a).symm⟩, fun _ => ⟨_, rfl, rfl⟩⟩

/-- Settles O26: one byte absorbed, at a count below the limit and at it. -/
theorem crcByteAbsorbsOneByte : Obligations.CrcByteAbsorbsOneByte := by
  refine ⟨fun _ _ => rfl, runCommand_crcByte 0, fun r b s hr => (runCommand_crcByte r b s).trans (if_neg hr),
    crcStep_self, fun b s hcount => ⟨_, rfl, ?_, rfl⟩, fun s hcrc hcount => ⟨_, runCommand_crcByte 0 0x1E s, ?_, ?_⟩⟩
  · exact congrArg countUp hcount
  · exact congrArg (crcStep · 0x1E) hcrc
  · exact congrArg countUp hcount

/-- Settles O27: the comparison, and the verdict flags it leaves in STATUS. -/
theorem crcCheckComparesTheChecksum : Obligations.CrcCheckComparesTheChecksum := by
  refine ⟨fun _ _ => rfl, runCommand_crcCheck 0, fun r b s hr => (runCommand_crcCheck r b s).trans (if_neg hr),
    fun b s => ⟨_, rfl, chkFail_check s.crcUnit b, rfl⟩, fun _ _ _ => rfl, fun s => ⟨_, rfl, rfl, rfl⟩,
    fun s hcrc => ⟨?_, ?_⟩⟩
  · exact ⟨_, runCommand_crcCheck 0 0x42 s, beq_iff_eq.mpr hcrc, (status_check_after_check s 0x42).trans (if_pos hcrc)⟩
  · have hne : s.crcUnit.crc ≠ 0x43 := by
      rw [hcrc]
      decide
    exact ⟨_, runCommand_crcCheck 0 0x43 s, congrArg (!·) (beq_false_of_ne hne),
      (status_check_after_check s 0x43).trans (if_neg hne)⟩

end Sys2Proof.Machine
end

section
/-!
PROOFS. NOP and CLR_ERR (42_control.md R108, R109): what their words run, what a command error leaves for each value of
CMD_ERR, ERRINFO, and the obligations NopChangesNothing and ClrErrClearsTheRecord.
-/
namespace Sys2Proof.Machine

/-! ## The words of NOP and CLR_ERR (R61 to R65) -/

theorem runCommand_nop (reserved : BitVec 24) (s : State) : runCommand (0x00#8 ++ reserved) s =
    if reserved = 0 then exec .nop s else .next (cmdError .reservedBits 0x00 s) :=
  runCommand_parts_n (decode_nop (parts_opcode_n 0x00#8 reserved)) s

theorem runCommand_clrErr (reserved : BitVec 24) (s : State) : runCommand (0x04#8 ++ reserved) s =
    if reserved = 0 then exec .clrErr s else .next (cmdError .reservedBits 0x04 s) :=
  runCommand_parts_n (decode_clrErr (parts_opcode_n 0x04#8 reserved)) s

/-! ## The error record and its register (R42, R115) -/

/-- Only the first command error is recorded: a later one changes nothing. -/
theorem cmdError_of_set {s : State} (h : s.errors.cmdErr = true) (cause : ErrCause) (opc : Byte) :
    cmdError cause opc s = s := by
  rw [cmdError, ErrorRecord.capture_of_set h]
  rfl

/-- The first command error is recorded, and nothing else changes. -/
theorem cmdError_of_clear {s : State} (h : s.errors.cmdErr = false) (cause : ErrCause) (opc : Byte) :
    cmdError cause opc s = s.setErrors { cmdErr := true, errCause := cause, errOpc := opc } := by
  rw [cmdError, ErrorRecord.capture_of_clear h]

/-- ERRINFO is a function of the error record alone. -/
theorem errInfo_setErrors (s : State) (e : ErrorRecord) :
    readRegister (s.setErrors e) 0x8 = (flagBit e.cmdErr ++ e.errOpc ++ 0#4 ++ e.errCause.toBits).setWidth 32 := rfl

/-! ## The obligations -/

/-- Settles O9: the words of NOP, with OPND 0 and with any bit of it set. -/
theorem nopChangesNothing : Obligations.NopChangesNothing :=
  have hreserved (r : BitVec 24) (s : State) (hr : r ≠ 0) :
      runCommand (0x00#8 ++ r) s = .next (cmdError .reservedBits 0x00 s) :=
    (runCommand_nop r s).trans (if_neg hr)
  ⟨fun _ => rfl, runCommand_nop 0, hreserved, fun s => hreserved 1 s (by decide)⟩

/-- Settles O10: a faulty CLR_ERR is a command error like any other, and the example's record is read in ERRINFO before
CLR_ERR and after it. -/
theorem clrErrClearsTheRecord : Obligations.ClrErrClearsTheRecord := by
  refine ⟨fun _ => rfl, runCommand_clrErr 0, fun r s hr hset => ?_, fun r s hr hclear => ?_, fun s hclean => ?_⟩
  · rw [runCommand_clrErr, if_neg hr, cmdError_of_set hset]
  · rw [runCommand_clrErr, if_neg hr, cmdError_of_clear hclear]
    rfl
  · obtain ⟨hunknown, -, -⟩ := unknownOpcodesAreErrors
    have hrun : runCommand 0xFF000000 s =
        .next (s.setErrors { cmdErr := true, errCause := .unknownOpcode, errOpc := 0xFF }) := by
      rw [← cmdError_of_clear hclean]
      exact hunknown 0xFF 0 s (by decide)
    exact ⟨_, hrun, errInfo_setErrors s _, _, rfl, errInfo_setErrors _ ErrorRecord.clear⟩

end Sys2Proof.Machine
end

section
/-!
PROOFS. What the decoder accepts (30_encoding.md R61 to R65): a word that decodes is the encoding of its instruction, and the
words a row of the table selects are those of its opcode with the reserved bits clear.
-/
namespace Sys2Proof.Machine

/-! ## The one spelling of an instruction (R62, R65) -/

/-- A word whose OPND bits above the operand are clear is built from its opcode and its operand. -/
theorem commandWord_of_reservedClear {f : Format} {w : Word} (h : reservedClear f w = true) :
    commandWord (opcField w) (w.extractLsb' 0 (formatWidth f)) = w := by
  rw [reservedClear_iff] at h
  apply BitVec.eq_of_getLsbD_eq
  intro i hi
  rw [commandWord_getLsbD]
  by_cases hopnd : i < 24
  · by_cases hf : i < formatWidth f
    · simp [hopnd, hf]
    · simp [hopnd, hf, h i (by omega) hopnd]
  · simp [opcField, hopnd, show i - 24 < 8 by omega, show 24 + (i - 24) = i by omega]

/-- What a checked word decodes to, if it decodes, is what was checked, and the check passed. -/
theorem checkReserved_ok {f : Format} {w : Word} {i j : Instr} (h : checkReserved f w i = .ok j) :
    reservedClear f w = true ∧ i = j := by
  cases hclear : reservedClear f w with
  | true => exact ⟨rfl, by simpa [checkReserved_of_clear hclear] using h⟩
  | false => simp [checkReserved_of_set hclear] at h

/-- A word that passes its opcode's check is the one an instruction of its opcode and operand is encoded as. -/
theorem encode_of_checkReserved {f : Format} {w : Word} {i j : Instr} (hdec : decodeCommand w = checkReserved f w i)
    (henc : encode i = .writeCmd (commandWord (opcField w) (w.extractLsb' 0 (formatWidth f))))
    (hok : decodeCommand w = .ok j) : encode j = .writeCmd w := by
  obtain ⟨hclear, rfl⟩ := checkReserved_ok (hdec.symm.trans hok)
  rw [henc, commandWord_of_reservedClear hclear]

/-- The same for format N, which has no operand. -/
theorem encode_of_checkReserved_n {w : Word} {i j : Instr} (hdec : decodeCommand w = checkReserved .n w i)
    (henc : encode i = .writeCmd (commandWord (opcField w) 0#0))
    (hok : decodeCommand w = .ok j) : encode j = .writeCmd w :=
  encode_of_checkReserved hdec (by rw [henc, BitVec.eq_nil (w.extractLsb' 0 (formatWidth .n))]; rfl) hok

/-- A word that decodes is the encoding of what it decodes to: no other word spells the instruction (R62 to R65). -/
theorem encode_of_decode {w : Word} {i : Instr} (hok : decodeCommand w = .ok i) : encode i = .writeCmd w := by
  obtain ⟨hopc, hdec⟩ | ⟨hopc, hdec⟩ | ⟨hopc, hdec⟩ | ⟨hopc, hdec⟩ | ⟨hopc, hdec⟩ | ⟨hopc, hdec⟩ | ⟨hopc, hdec⟩ |
    ⟨hopc, hdec⟩ | ⟨hopc, hdec⟩ | ⟨hopc, hdec⟩ | ⟨hopc, hdec⟩ | ⟨hopc, hdec⟩ | ⟨hopc, hdec⟩ | ⟨hopc, hdec⟩ | ⟨-, hdec⟩ :=
    decode_cases w
  · exact encode_of_checkReserved_n hdec (by rw [hopc]; rfl) hok
  · exact encode_of_checkReserved hdec (by rw [hopc]; rfl) hok
  · exact encode_of_checkReserved hdec (by rw [hopc]; rfl) hok
  · exact encode_of_checkReserved hdec (by rw [hopc]; rfl) hok
  · exact encode_of_checkReserved_n hdec (by rw [hopc]; rfl) hok
  · exact encode_of_checkReserved_n hdec (by rw [hopc]; rfl) hok
  · exact encode_of_checkReserved hdec (by rw [hopc]; rfl) hok
  · exact encode_of_checkReserved hdec (by rw [hopc]; rfl) hok
  · exact encode_of_checkReserved hdec (by rw [hopc]; rfl) hok
  · exact encode_of_checkReserved hdec (by rw [hopc]; rfl) hok
  · exact encode_of_checkReserved hdec (by rw [hopc]; rfl) hok
  · exact encode_of_checkReserved_n hdec (by rw [hopc]; rfl) hok
  · exact encode_of_checkReserved_n hdec (by rw [hopc]; rfl) hok
  · exact encode_of_checkReserved_n hdec (by rw [hopc]; rfl) hok
  · cases hdec.symm.trans hok

/-! ## The rows of the table, as the decoder checks them (R63, R64) -/

/-- A row fixes the whole opcode in its mask, and no OPND bit in its match. -/
theorem row_opcode_fixed : ∀ r ∈ opcodeRows, opcField r.mask = 0xFF ∧ r.matchBits.extractLsb' 0 24 = 0 := by decide

/-- A word is its opcode and its OPND (R61). -/
theorem word_eq_iff (v w : Word) : v = w ↔ opcField v = opcField w ∧ v.extractLsb' 0 24 = w.extractLsb' 0 24 := by
  have hparts (x : Word) : opcField x ++ x.extractLsb' 0 24 = x :=
    BitVec.extractLsb'_append_extractLsb' (w := 8) (len := 24)
  constructor
  · rintro rfl
    exact ⟨rfl, rfl⟩
  · rintro ⟨hopc, hopnd⟩
    rw [← hparts v, hopc, hopnd, hparts]

/-- A row selects the words of its opcode with the reserved bits of its format clear. -/
theorem selects_iff {r : OpcodeRow} (hr : r ∈ opcodeRows) (w : Word) :
    r.selects w = true ↔ opcField w = opcField r.matchBits ∧ reservedClear r.format w = true := by
  obtain ⟨hmask, hmatch⟩ := row_opcode_fixed r hr
  have hopc : opcField (w &&& r.mask) = opcField w := by
    rw [opcField, BitVec.extractLsb'_and]
    exact (congrArg (opcField w &&& ·) hmask).trans BitVec.and_allOnes
  rw [OpcodeRow.selects, beq_iff_eq, word_eq_iff, hopc, BitVec.extractLsb'_and, hmatch, reservedClear_iff_masked hr]

/-- A word that a row selects decodes. -/
theorem decode_of_selects {w : Word} (h : ∃ r ∈ opcodeRows, r.selects w = true) : ∃ i, decodeCommand w = .ok i := by
  obtain ⟨r, hr, hsel⟩ := h
  obtain ⟨hopc, hclear⟩ := (selects_iff hr w).mp hsel
  obtain ⟨i, hdec⟩ := decode_of_row hr hopc
  exact ⟨i, hdec.trans (checkReserved_of_clear hclear i)⟩

end Sys2Proof.Machine
end

section
/-!
PROOFS. The checks of a command word in the order of 60_exceptions.md R117, the command error each of them raises (R115,
R116), and the obligations CommandErrorRecordsTheFirst and ErrorPriority.
-/
namespace Sys2Proof.Machine

/-! ## The checks of a word, in their order (R117) -/

/-- Check 1: the opcode is of no row (R66). -/
theorem runCommand_unknownOpcode {w : Word} (h : ¬ ∃ r ∈ opcodeRows, opcField r.matchBits = opcField w) (s : State) :
    runCommand w s = .next (cmdError .unknownOpcode (opcField w) s) :=
  runCommand_of_error (decode_unknown fun r hr hopc => h ⟨r, hr, hopc.symm⟩) s

/-- Check 2: the opcode is a row's, but no row selects the word (R63). -/
theorem runCommand_reservedBits {w : Word} (hopc : ∃ r ∈ opcodeRows, opcField r.matchBits = opcField w)
    (hrow : ¬ ∃ r ∈ opcodeRows, r.selects w = true) (s : State) :
    runCommand w s = .next (cmdError .reservedBits (opcField w) s) := by
  obtain ⟨r, hr, h⟩ := hopc
  exact runCommand_of_reserved hr h.symm (fun hclear => hrow ⟨r, hr, (selects_iff hr w).mpr ⟨h.symm, hclear⟩⟩) s

/-- Check 3: the word's RT_ command is not legal in RT_STATE (R75). -/
def FailsStateCheck (w : Word) (s : State) : Prop :=
  (opcField w = 0x20#8 ∧ s.retryUnit.rtState ≠ .idle) ∨ (opcField w = 0x21#8 ∧ s.retryUnit.rtState ≠ .issue) ∨
    (opcField w = 0x22#8 ∧ s.retryUnit.rtState ≠ .wait) ∨ (opcField w = 0x23#8 ∧ s.retryUnit.rtState ≠ .wait) ∨
    (opcField w = 0x24#8 ∧ s.retryUnit.rtState ≠ .done)

/-- Check 4: the word reports a code that names no result (R67). -/
def FailsCodeCheck (w : Word) : Prop := opcField w = 0x21#8 ∧ 9 ≤ (code4Field w).toNat

section
variable {w : Word} {i : Instr} {s : State} (hok : decodeCommand w = .ok i)
include hok

/-- A word that decodes runs the command that its opcode names. -/
theorem runCommand_of_checkReserved {f : Format} {j : Instr} (hdec : decodeCommand w = checkReserved f w j) (s : State) :
    runCommand w s = exec j s := by
  obtain ⟨-, rfl⟩ := checkReserved_ok (hdec.symm.trans hok)
  exact runCommand_of_ok hok s

theorem runCommand_badState (h : FailsStateCheck w s) :
    runCommand w s = .next (cmdError .badState (opcField w) s) := by
  obtain ⟨hopc, hst⟩ | ⟨hopc, hst⟩ | ⟨hopc, hst⟩ | ⟨hopc, hst⟩ | ⟨hopc, hst⟩ := h <;> rw [hopc]
  · exact (runCommand_of_checkReserved hok (decode_rtStart hopc) s).trans (exec_rtStart_badState hst _)
  · exact (runCommand_of_checkReserved hok (decode_rtReport hopc) s).trans (exec_rtReport_badState hst _)
  · exact (runCommand_of_checkReserved hok (decode_rtRetry hopc) s).trans (exec_rtRetry_badState hst)
  · exact (runCommand_of_checkReserved hok (decode_rtAbort hopc) s).trans (exec_rtAbort_badState hst)
  · exact (runCommand_of_checkReserved hok (decode_rtClear hopc) s).trans (exec_rtClear_badState hst)

theorem runCommand_reservedCode (hstate : ¬ FailsStateCheck w s) (h : FailsCodeCheck w) :
    runCommand w s = .next (cmdError .reservedCode (opcField w) s) := by
  obtain ⟨hopc, hcode⟩ := h
  have hissue : s.retryUnit.rtState = .issue := by
    by_contra hne
    exact hstate (.inr (.inl ⟨hopc, hne⟩))
  rw [hopc]
  exact (runCommand_of_checkReserved hok (decode_rtReport hopc) s).trans (exec_rtReport_reserved hissue hcode)

/-- A command that passes both checks is legal. -/
theorem legalIn_of_checks (hstate : ¬ FailsStateCheck w s) (hcode : ¬ FailsCodeCheck w) : legalIn i s = true := by
  have hword := encode_of_decode hok
  cases i with
  | rtStart m =>
    cases hword
    simpa [FailsStateCheck, Opc.rtStart, legalIn] using hstate
  | rtReport c =>
    cases hword
    have hissue : s.retryUnit.rtState = .issue := by simpa [FailsStateCheck, Opc.rtReport] using hstate
    have hc : c.toNat < 9 := by simpa [FailsCodeCheck, Opc.rtReport] using hcode
    simp [legalIn, hissue, Nat.le_of_lt_succ hc]
  | rtRetry =>
    cases hword
    simpa [FailsStateCheck, Opc.rtRetry, legalIn] using hstate
  | rtAbort =>
    cases hword
    simpa [FailsStateCheck, Opc.rtAbort, legalIn] using hstate
  | rtClear =>
    cases hword
    simpa [FailsStateCheck, Opc.rtClear, legalIn] using hstate
  | _ => rfl

/-- A legal command other than CLR_ERR, which has one word, leaves the error record. -/
theorem runCommand_legal (hlegal : legalIn i s = true) (hne : w ≠ 0x04000000) :
    ∃ t, runCommand w s = .next t ∧ t.errors = s.errors := by
  have hi : i ≠ .clrErr := by
    rintro rfl
    exact hne (HostOp.writeCmd.inj (encode_of_decode hok)).symm
  obtain ⟨t, ht⟩ := exec_next i s
  refine ⟨t, (runCommand_of_ok hok s).trans ht, ?_⟩
  obtain ⟨-, u, rfl⟩ | ⟨-, -, u, rfl⟩ | ⟨-, hillegal, -⟩ | ⟨rfl, -⟩ | ⟨index, -, rfl⟩ | ⟨-, rfl⟩ := exec_shape ht
  · rfl
  · rfl
  · cases hlegal.symm.trans hillegal
  · exact absurd rfl hi
  · rfl
  · rfl

end

/-- The first command error records its cause. -/
theorem cmdError_errCause_of_clear {s : State} (h : s.errors.cmdErr = false) (cause : ErrCause) (opc : Byte) :
    (cmdError cause opc s).errors.errCause = cause := by
  rw [cmdError_of_clear h, State.setErrors_errors]

/-! ## The obligations -/

/-- Settles O43: an illegal command fails the state check or else the code check, and either records the word's opcode. -/
theorem commandErrorRecordsTheFirst : Obligations.CommandErrorRecordsTheFirst := by
  refine ⟨fun cause opc s h => cmdError_of_clear h cause opc, fun cause opc s h => cmdError_of_set h cause opc,
    fun w e s h => runCommand_of_error h s, fun w i s hok hillegal => ?_⟩
  by_cases hstate : FailsStateCheck w s
  · exact ⟨_, runCommand_badState hok hstate⟩
  by_cases hcode : FailsCodeCheck w
  · exact ⟨_, runCommand_reservedCode hok hstate hcode⟩
  cases hillegal.symm.trans (legalIn_of_checks hok hstate hcode)

/-- Settles O44: one lemma per check, in their order; what passes them all is CLR_ERR or leaves the record. -/
theorem errorPriority : Obligations.ErrorPriority := by
  have hreport : decodeCommand 0x2100000F = .ok (.rtReport 0xF) := rfl
  refine ⟨fun w s hclean => ?_, fun s h => ⟨rfl, ?_⟩, fun s h => ?_⟩
  · have hrecords (cause : ErrCause) (hrun : runCommand w s = .next (cmdError cause (opcField w) s)) :
        ∃ t, runCommand w s = .next t ∧ t.errors.errCause = cause :=
      ⟨_, hrun, cmdError_errCause_of_clear hclean cause _⟩
    split_ifs with hopc hrow hstate hcode hclr
    · obtain ⟨i, hok⟩ := decode_of_selects hrow
      exact hrecords .badState (runCommand_badState hok hstate)
    · obtain ⟨i, hok⟩ := decode_of_selects hrow
      exact hrecords .reservedCode (runCommand_reservedCode hok hstate hcode)
    · subst hclr
      exact ⟨_, rfl, rfl⟩
    · obtain ⟨i, hok⟩ := decode_of_selects hrow
      obtain ⟨t, ht, herrors⟩ := runCommand_legal hok (legalIn_of_checks hok hstate hcode) hclr
      exact ⟨t, ht, congrArg ErrorRecord.errCause herrors⟩
    · exact hrecords .reservedBits (runCommand_reservedBits hopc hrow s)
    · exact hrecords .unknownOpcode (runCommand_unknownOpcode hopc s)
  · exact (runCommand_of_ok hreport s).trans (exec_rtReport_badState (by simp [h]) 0xF)
  · exact (runCommand_of_ok hreport s).trans (exec_rtReport_reserved h (by decide))

end Sys2Proof.Machine
end

section
/-!
PROOFS. Reset and the address change (70_reset_and_hazards.md R131 to R133, R139): CFG_ADDR commutes with a packet's bytes and
its checksum byte, the reset event gives every element its reset value, and the obligations AddressChangeKeepsThePacket,
ResetSetsEveryElement and RegisterWordsAfterReset.
-/
namespace Sys2Proof.Machine

/-! ## CFG_ADDR within a packet (R139) -/

theorem exec_cfgAddr (a : Addr7) (s : State) : exec (.cfgAddr a) s = .next (s.setCrcUnit (s.crcUnit.configure a)) := rfl

theorem exec_crcInit (s : State) : exec .crcInit s = .next (s.setCrcUnit (s.crcUnit.begin s.crcUnit.seed)) := rfl

/-- An absorbed byte goes into the running CRC, which CFG_ADDR does not write, so the two may change places. -/
theorem foldl_absorb_configure (data : List Byte) (u : CrcUnit) (a : Addr7) :
    data.foldl CrcUnit.absorb (u.configure a) = (data.foldl CrcUnit.absorb u).configure a := by
  rw [foldl_absorb, foldl_absorb]
  rfl

/-- A new address between two bytes of a packet leaves the unit as the same address after the whole packet does. -/
theorem CrcUnit.configure_within_packet (u : CrcUnit) (a : Addr7) (before after : List Byte) (check : Byte) :
    (after.foldl absorb ((before.foldl absorb (u.begin u.seed)).configure a)).check check =
      (u.checkPacket (before ++ after) check).configure a := by
  rw [foldl_absorb_configure, ← List.foldl_append]
  rfl

/-- The commands of a packet with CFG_ADDR between two of its bytes check the packet and then set the address. -/
theorem execAll_cfgAddr_within_packet (a : Addr7) (before after : List Byte) (check : Byte) (s : State) :
    execAll (.crcInit :: (before.map .crcByte ++ .cfgAddr a :: (after.map .crcByte ++ [.crcCheck check]))) s =
      .next (s.setCrcUnit ((s.crcUnit.checkPacket (before ++ after) check).configure a)) := by
  rw [execAll_cons (exec_crcInit s), execAll_append (execAll_crcBytes before _), execAll_cons (exec_cfgAddr a _),
    execAll_append (execAll_crcBytes after _), ← CrcUnit.configure_within_packet]
  rfl

@[simp] theorem CrcUnit.checkPacket_crc (u : CrcUnit) (payload : List Byte) (check : Byte) :
    (u.checkPacket payload check).crc = crc8 u.seed payload := by simp [checkPacket, foldl_absorb]

/-- Settles O28: the packet is checked as if CFG_ADDR came after it, and a CRC_INIT after CFG_ADDR takes the new SEED. -/
theorem addressChangeKeepsThePacket : Obligations.AddressChangeKeepsThePacket := by
  refine ⟨fun a before after check s => ?_, fun a s => ⟨_, rfl, CrcUnit.configure_seed s.crcUnit a⟩⟩
  exact ⟨_, execAll_cfgAddr_within_packet a before after check s, CrcUnit.configure_seed _ a,
    CrcUnit.checkPacket_crc s.crcUnit _ check, CrcUnit.checkPacket_chkOk s.crcUnit _ check⟩

/-! ## The reset event (R131, R133) -/

theorem runOp_reset (s : State) : runOp .reset s = .next (resetBlock s) := rfl

/-- The reset drops an outstanding attempt: no report is legal after it. -/
theorem resetBlock_rtState_ne_issue (s : State) : (resetBlock s).retryUnit.rtState ≠ .issue := by
  rw [resetBlock_retryUnit]
  decide

/-- Settles O46: each unit of the block after the event is the reset state's, whose RT_STATE is IDLE. -/
theorem resetSetsEveryElement : Obligations.ResetSetsEveryElement :=
  ⟨fun s => ⟨_, runOp_reset s, resetBlock_crcUnit s, resetBlock_retryUnit s, resetBlock_errors s⟩, rfl,
    fun s _ => ⟨_, runOp_reset s, exec_rtReport_badState (resetBlock_rtState_ne_issue s)⟩⟩

/-! ## The register words after reset (R132) -/

/-- The indices 0x9 to 0xF are none of the nine registers' and read 0 in every state (R40). -/
theorem readRegister_reserved {i : RegIndex} (h : 9 ≤ i.toNat) (s : State) : readRegister s i = 0x00000000 := by
  have hne (k : RegIndex) (hk : k.toNat < 9) : i ≠ k := by
    rintro rfl
    omega
  simp (disch := decide) only [readRegister, hne, if_false]

/-- Settles O47: the nine words of the reset state by evaluation, the reserved indices by the read map. -/
theorem registerWordsAfterReset : Obligations.RegisterWordsAfterReset :=
  ⟨rfl, rfl, rfl, rfl, rfl, rfl, rfl, rfl, rfl, fun _ hi => readRegister_reserved hi State.reset⟩

end Sys2Proof.Machine
end

section
/-!
PROOFS. The decoder against the encoder and the opcode table (30_encoding.md R62 to R67): every instruction is read back
from its encoding, the row that selects a word is the row of the instruction it spells, and the obligations
EncodeThenDecodeEveryInstruction, DecodeThenEncodeEveryWord, DecodeSelectsTheTableRow and WordsOfTheSpecDecode.
-/
namespace Sys2Proof.Machine

/-! ## From the encoding back to the instruction (R62, R65, R74) -/

/-- A word with its reserved bits clear decodes to the instruction that its opcode and its operand name. -/
theorem decodeOp_of_clear {f : Format} {w : Word} {i j : Instr} (hdec : decodeCommand w = checkReserved f w i)
    (hclear : reservedClear f w = true) (hoperand : i = j) : decodeOp (.writeCmd w) = some j := by
  rw [decodeOp, hdec, checkReserved_of_clear hclear, hoperand]
  rfl

/-- Settles O1: case by case, the built word has the instruction's opcode, no reserved bit and the operand in its field. -/
theorem encodeThenDecodeEveryInstruction : Obligations.EncodeThenDecodeEveryInstruction := by
  intro i
  cases i with
  | nop => rfl
  | cfgAddr a =>
    exact decodeOp_of_clear (decode_cfgAddr (opcField_commandWord _ a)) (reservedClear_a _ a)
      (congrArg Instr.cfgAddr (addr7Field_commandWord _ a))
  | cfgBoBase v =>
    exact decodeOp_of_clear (decode_cfgBoBase (opcField_commandWord _ v)) (reservedClear_h _ v)
      (congrArg Instr.cfgBoBase (imm16Field_commandWord _ v))
  | cfgBoCap v =>
    exact decodeOp_of_clear (decode_cfgBoCap (opcField_commandWord _ v)) (reservedClear_h _ v)
      (congrArg Instr.cfgBoCap (imm16Field_commandWord _ v))
  | clrErr => rfl
  | crcInit => rfl
  | crcLoad b =>
    exact decodeOp_of_clear (decode_crcLoad (opcField_commandWord _ b)) (reservedClear_b _ b)
      (congrArg Instr.crcLoad (imm8Field_commandWord _ b))
  | crcByte b =>
    exact decodeOp_of_clear (decode_crcByte (opcField_commandWord _ b)) (reservedClear_b _ b)
      (congrArg Instr.crcByte (imm8Field_commandWord _ b))
  | crcCheck b =>
    exact decodeOp_of_clear (decode_crcCheck (opcField_commandWord _ b)) (reservedClear_b _ b)
      (congrArg Instr.crcCheck (imm8Field_commandWord _ b))
  | rtStart m =>
    exact decodeOp_of_clear (decode_rtStart (opcField_commandWord _ m)) (reservedClear_b _ m)
      (congrArg Instr.rtStart (imm8Field_commandWord _ m))
  | rtReport c =>
    exact decodeOp_of_clear (decode_rtReport (opcField_commandWord _ c)) (reservedClear_e _ c)
      (congrArg Instr.rtReport (code4Field_commandWord _ c))
  | rtRetry => rfl
  | rtAbort => rfl
  | rtClear => rfl
  | regRead index => rfl

/-- Settles O2: the encoding of what a word decodes to is that word. -/
theorem decodeThenEncodeEveryWord : Obligations.DecodeThenEncodeEveryWord := fun _ _ => encode_of_decode

/-! ## The row that selects a word (R64) -/

/-- Each instruction's encoding is selected by the row under its mnemonic. -/
theorem tableRow_statement (i : Instr) : Laws.TableRow.Statement i := by
  cases i with
  | nop => exact Laws.TableRow.nop
  | cfgAddr a => exact Laws.TableRow.cfgAddr a
  | cfgBoBase v => exact Laws.TableRow.cfgBoBase v
  | cfgBoCap v => exact Laws.TableRow.cfgBoCap v
  | clrErr => exact Laws.TableRow.clrErr
  | crcInit => exact Laws.TableRow.crcInit
  | crcLoad b => exact Laws.TableRow.crcLoad b
  | crcByte b => exact Laws.TableRow.crcByte b
  | crcCheck b => exact Laws.TableRow.crcCheck b
  | rtStart m => exact Laws.TableRow.rtStart m
  | rtReport c => exact Laws.TableRow.rtReport c
  | rtRetry => exact Laws.TableRow.rtRetry
  | rtAbort => exact Laws.TableRow.rtAbort
  | rtClear => exact Laws.TableRow.rtClear
  | regRead index => exact Laws.TableRow.regRead index

/-- A word that decodes is selected by the row of the instruction it spells. -/
theorem row_of_decode {w : Word} {i : Instr} (hok : decodeCommand w = .ok i) :
    ∃ r ∈ opcodeRows, r.mnemonic = i.mnemonic ∧ r.selects w = true := by
  have hrow := tableRow_statement i
  rwa [Laws.TableRow.Statement, encode_of_decode hok] at hrow

/-- The rows of the table have different opcodes. -/
theorem row_eq_of_opcode_eq : ∀ r₁ ∈ opcodeRows, ∀ r₂ ∈ opcodeRows,
    opcField r₁.matchBits = opcField r₂.matchBits → r₁ = r₂ := by
  decide

/-- At most one row selects a word: the row of its opcode. -/
theorem selects_unique {w : Word} {r₁ r₂ : OpcodeRow} (hr₁ : r₁ ∈ opcodeRows) (hr₂ : r₂ ∈ opcodeRows)
    (hsel₁ : r₁.selects w = true) (hsel₂ : r₂.selects w = true) : r₁ = r₂ := by
  obtain ⟨hopc₁, -⟩ := (selects_iff hr₁ w).mp hsel₁
  obtain ⟨hopc₂, -⟩ := (selects_iff hr₂ w).mp hsel₂
  exact row_eq_of_opcode_eq r₁ hr₁ r₂ hr₂ (hopc₁.symm.trans hopc₂)

/-- RT_REPORT's word decodes for every code, the reserved ones too (R67). -/
theorem decode_rtReport_word (c : Code4) : decodeCommand (0x21#8 ++ 0#20 ++ c) = .ok (.rtReport c) := by
  have hcode : code4Field (0x21#8 ++ 0#20 ++ c) = c := parts_operand 0x21#8 0#20 c
  have hclear : reservedClear .e (0x21#8 ++ 0#20 ++ c) = true := beq_iff_eq.mpr (parts_reserved 0x21#8 0#20 c)
  rw [decode_rtReport (parts_opcode 0x21#8 0#20 c rfl), checkReserved_of_clear hclear, hcode]

/-- Settles O3: a decoded word's row is its instruction's, a selected word decodes, and no second row selects it. -/
theorem decodeSelectsTheTableRow : Obligations.DecodeSelectsTheTableRow := by
  refine ⟨fun r w => beq_iff_eq, fun w => ⟨fun ⟨i, hok⟩ => ?_, decode_of_selects⟩,
    fun w r₁ hr₁ r₂ hr₂ => selects_unique hr₁ hr₂, fun w i hok r hr hsel => ?_, fun c s hc hissue => ?_⟩
  · obtain ⟨r, hr, -, hsel⟩ := row_of_decode hok
    exact ⟨r, hr, hsel⟩
  · obtain ⟨r', hr', hname, hsel'⟩ := row_of_decode hok
    rw [selects_unique hr hr' hsel hsel', hname]
  · have hok := decode_rtReport_word c
    exact ⟨hok, (runCommand_of_ok hok s).trans (exec_rtReport_reserved hissue hc)⟩

/-- Settles O4: each word is evaluated. -/
theorem wordsOfTheSpecDecode : Obligations.WordsOfTheSpecDecode := ⟨rfl, rfl, rfl, rfl, rfl, rfl, rfl, rfl, rfl⟩

end Sys2Proof.Machine
end

section
/-!
PROOFS. What an instruction, a command word and a step can do to the block (60_exceptions.md R120, R122, 10_state.md R44):
what is illegal is one command error, the effect depends on the block's own elements alone, every operation answers a next
state; and the obligations CommandErrorsArePrecise, ResetRacingACommand, TheBlockNeverStops and OnlyTheBlocksStateIsObserved.
-/
namespace Sys2Proof.Machine

variable {i : Instr} {s s' t : State}

/-! ## Command errors (R115, R120) -/

/-- What is illegal raises one command error, whose cause and opcode depend on the instruction and the retry unit alone. -/
theorem exec_cmdError_of_illegal (hillegal : legalIn i s = false) :
    ∃ cause opc, cause ≠ .none ∧
      ∀ s', s'.retryUnit = s.retryUnit → exec i s' = .next (cmdError cause opc s') := by
  cases i with
  | rtStart m =>
    have hne : s.retryUnit.rtState ≠ .idle := by simpa [legalIn] using hillegal
    exact ⟨.badState, 0x20, nofun, fun s' hs => exec_rtStart_badState (hs ▸ hne) m⟩
  | rtReport c =>
    by_cases hissue : s.retryUnit.rtState = .issue
    · have hc : 8 < c.toNat := by simpa [legalIn, hissue] using hillegal
      exact ⟨.reservedCode, 0x21, nofun, fun s' hs => exec_rtReport_reserved (hs ▸ hissue) hc⟩
    · exact ⟨.badState, 0x21, nofun, fun s' hs => exec_rtReport_badState (hs ▸ hissue) c⟩
  | rtRetry =>
    have hne : s.retryUnit.rtState ≠ .wait := by simpa [legalIn] using hillegal
    exact ⟨.badState, 0x22, nofun, fun s' hs => exec_rtRetry_badState (hs ▸ hne)⟩
  | rtAbort =>
    have hne : s.retryUnit.rtState ≠ .wait := by simpa [legalIn] using hillegal
    exact ⟨.badState, 0x23, nofun, fun s' hs => exec_rtAbort_badState (hs ▸ hne)⟩
  | rtClear =>
    have hne : s.retryUnit.rtState ≠ .done := by simpa [legalIn] using hillegal
    exact ⟨.badState, 0x24, nofun, fun s' hs => exec_rtClear_badState (hs ▸ hne)⟩
  | _ => cases hillegal

/-- All that an instruction does to the error record. -/
theorem exec_errors (h : exec i s = .next t) :
    t.errors = s.errors ∨ (i = .clrErr ∧ t.errors = ErrorRecord.clear) ∨
      (legalIn i s = false ∧ ∃ cause opc, cause ≠ .none ∧ t.errors = s.errors.capture cause opc) := by
  obtain ⟨-, u, rfl⟩ | ⟨-, -, u, rfl⟩ | ⟨-, hillegal, -⟩ | ⟨rfl, rfl⟩ | ⟨index, -, rfl⟩ | ⟨-, rfl⟩ := exec_shape h
  · exact .inl rfl
  · exact .inl rfl
  · obtain ⟨cause, opc, hcause, herror⟩ := exec_cmdError_of_illegal hillegal
    cases h.symm.trans (herror s rfl)
    exact .inr (.inr ⟨hillegal, cause, opc, hcause, rfl⟩)
  · exact .inr (.inl ⟨rfl, rfl⟩)
  · exact .inl rfl
  · exact .inl rfl

/-! ## The effect depends on the block's own elements alone (R44) -/

/-- States that agree in both units stay so under an instruction, and states that agree in the error record too. -/
theorem exec_congr (hcrc : s'.crcUnit = s.crcUnit) (hretry : s'.retryUnit = s.retryUnit) (h : exec i s = .next t) :
    ∃ t', exec i s' = .next t' ∧ t'.crcUnit = t.crcUnit ∧ t'.retryUnit = t.retryUnit ∧
      (s'.errors = s.errors → t'.errors = t.errors) := by
  cases hrt : isRtCommand i with
  | false =>
    cases i with
    | rtStart | rtReport | rtRetry | rtAbort | rtClear => cases hrt
    | _ =>
      cases h
      refine ⟨_, rfl, ?_, ?_, ?_⟩ <;> simp [hcrc, hretry]
  | true =>
    cases hlegal : legalIn i s with
    | true =>
      obtain ⟨u, hu⟩ := exists_rtStep hrt hlegal
      obtain ⟨-, -, hexec⟩ := hu.accepted
      obtain ⟨-, -, hexec'⟩ := RtStep.accepted (s := s') (hretry ▸ hu)
      cases h.symm.trans hexec
      exact ⟨_, hexec', hcrc, rfl, id⟩
    | false =>
      obtain ⟨cause, opc, -, herror⟩ := exec_cmdError_of_illegal hlegal
      cases h.symm.trans (herror s rfl)
      exact ⟨_, herror s' hretry, hcrc, hretry, congrArg fun e : ErrorRecord => e.capture cause opc⟩

/-- Only a register read leaves anything before the ports. -/
theorem exec_host (h : exec i s = .next t) : t.host = s.host ∨ ∃ index, i = .regRead index := by
  obtain ⟨-, u, rfl⟩ | ⟨-, -, u, rfl⟩ | ⟨-, -, cause, opc, rfl⟩ | ⟨-, rfl⟩ | ⟨index, hi, -⟩ | ⟨-, rfl⟩ := exec_shape h
  · exact .inl rfl
  · exact .inl rfl
  · exact .inl rfl
  · exact .inl rfl
  · exact .inr ⟨index, hi⟩
  · exact .inl rfl

/-! ## Command words -/

/-- No command word spells a register read (R74). -/
theorem decode_ne_regRead (w : Word) (index : RegIndex) : decodeCommand w ≠ .ok (.regRead index) := by
  intro hok
  cases encode_of_decode hok

/-- Every command word answers a next state (R68). -/
theorem runCommand_next (w : Word) (s : State) : ∃ t, runCommand w s = .next t := by
  obtain ⟨i, t, -, -, h⟩ | ⟨e, -, h⟩ := everyWordHasOneDefinedEffect w s
  · exact ⟨t, h⟩
  · exact ⟨_, h⟩

/-- A command word leaves alike what it finds alike in the block, and leaves what stands before the ports. -/
theorem runCommand_congr {w : Word} (hcrc : s'.crcUnit = s.crcUnit) (hretry : s'.retryUnit = s.retryUnit)
    (herrors : s'.errors = s.errors) (h : runCommand w s = .next t) :
    ∃ t', runCommand w s' = .next t' ∧ t'.crcUnit = t.crcUnit ∧ t'.retryUnit = t.retryUnit ∧ t'.errors = t.errors ∧
      t'.host = s'.host := by
  cases hw : decodeCommand w with
  | ok i =>
    rw [runCommand_of_ok hw] at h
    obtain ⟨t', ht', hcrc', hretry', herrors'⟩ := exec_congr hcrc hretry h
    obtain hhost | ⟨index, rfl⟩ := exec_host ht'
    · exact ⟨t', (runCommand_of_ok hw s').trans ht', hcrc', hretry', herrors' herrors, hhost⟩
    · exact absurd hw (decode_ne_regRead w index)
  | error e =>
    cases h.symm.trans (runCommand_of_error hw s)
    exact ⟨_, runCommand_of_error hw s', hcrc, hretry, congrArg (fun e : ErrorRecord => e.capture _ _) herrors, rfl⟩

/-- The read port shows the block's own elements alone. -/
theorem readRegister_congr (hcrc : s.crcUnit = t.crcUnit) (hretry : s.retryUnit = t.retryUnit)
    (herrors : s.errors = t.errors) (index : RegIndex) : readRegister s index = readRegister t index := by
  cases s
  cases t
  cases hcrc
  cases hretry
  cases herrors
  rfl

/-! ## Port operations and steps -/

/-- A reset that coincides with a command: the reset alone, or the command on the reset state (R122). -/
theorem runOp_resetDuringCmd (w : Word) (s : State) :
    runOp (.resetDuringCmd w) s = .next (resetBlock s.countRace) ∨
      runOp (.resetDuringCmd w) s = runCommand w (resetBlock s.countRace) :=
  ite_eq_or_eq _ _ _

/-- Every port operation answers a next state. -/
theorem runOp_next (op : HostOp) (s : State) : ∃ t, runOp op s = .next t := by
  cases op with
  | writeCmd w => exact runCommand_next w s
  | readReg index => exact exec_next (.regRead index) s
  | reset => exact ⟨_, runOp_reset s⟩
  | resetDuringCmd w =>
    obtain hrace | hrace := runOp_resetDuringCmd w s
    · exact ⟨_, hrace⟩
    · rw [hrace]
      exact runCommand_next w _

/-! ## The obligations -/

/-- Settles O45: the error of an illegal instruction or word, the record a legal one leaves, and the units that read nothing
of the record. -/
theorem commandErrorsArePrecise : Obligations.CommandErrorsArePrecise := by
  refine ⟨fun i s => exec_of_not_legal, fun w s hno => ?_, fun i s hlegal hi => ?_, fun i s t e h => ?_⟩
  · cases hw : decodeCommand w with
    | ok i => exact absurd hw (hno i)
    | error e => exact ⟨_, runCommand_of_error hw s⟩
  · obtain ⟨t, ht⟩ := exec_next i s
    obtain hkeep | ⟨hclr, -⟩ | ⟨hillegal, -⟩ := exec_errors ht
    · exact ⟨t, ht, hkeep⟩
    · exact absurd hclr hi
    · cases hlegal.symm.trans hillegal
  · obtain ⟨t', ht', hcrc, hretry, -⟩ := exec_congr (s := s) (s' := s.setErrors e) rfl rfl h
    exact ⟨t', ht', hcrc, hretry⟩

/-- Settles O48: in the second outcome the command meets the elements of the reset state. -/
theorem resetRacingACommand : Obligations.ResetRacingACommand := by
  refine ⟨fun s w => ?_, fun _ _ => rfl, fun s => ⟨_, runOp_reset s, rfl⟩⟩
  obtain ⟨u, hu⟩ := runCommand_next w State.reset
  obtain hrace | hrace := runOp_resetDuringCmd w s
  · exact ⟨_, u, hrace, hu, .inl rfl⟩
  · obtain ⟨t, ht, hcrc, hretry, herrors, -⟩ :=
      runCommand_congr (s := State.reset) (s' := resetBlock s.countRace) rfl rfl rfl hu
    exact ⟨t, u, hrace.trans ht, hu, .inr (by rw [hcrc, hretry, herrors])⟩

/-- Settles O51: a step is the oldest operation, or nothing. -/
theorem theBlockNeverStops : Obligations.TheBlockNeverStops := by
  intro s
  cases hpending : s.host.pending with
  | nil => exact ⟨s, step_of_nil hpending⟩
  | cons op rest =>
    rw [step_of_cons hpending]
    exact runOp_next op _

/-- Settles O53: the read port and the command words, each by its congruence. -/
theorem onlyTheBlocksStateIsObserved : Obligations.OnlyTheBlocksStateIsObserved := by
  refine ⟨fun index s t hcrc hretry herrors => readRegister_congr hcrc hretry herrors index, fun w s p => ?_⟩
  obtain ⟨t, ht⟩ := runCommand_next w s
  obtain ⟨t', ht', heffect⟩ := runCommand_congr (s := s) (s' := { s with host := p }) rfl rfl rfl ht
  exact ⟨t, t', ht, ht', heffect⟩

end Sys2Proof.Machine
end

section
/-!
PROOFS. The invariants of the block (10_state.md, sections 2 to 4): each unit's operations keep its own, the reset state
meets them, every step keeps them, and the obligations ResetMeetsTheInvariants and StepKeepsTheInvariants.
-/
namespace Sys2Proof.Machine

/-! ## The CRC unit (R23, R26 to R28) -/

theorem CrcUnit.configure_inv {u : CrcUnit} (h : u.Inv) (a : Addr7) : (u.configure a).Inv := by
  obtain ⟨-, hok, hrcvd⟩ := h
  exact ⟨rfl, hok, hrcvd⟩

theorem CrcUnit.begin_inv {u : CrcUnit} (h : u.Inv) (c : Byte) : (u.begin c).Inv := by
  obtain ⟨hseed, -, -⟩ := h
  exact ⟨hseed, nofun, fun _ => rfl⟩

theorem CrcUnit.absorb_inv {u : CrcUnit} (h : u.Inv) (b : Byte) : (u.absorb b).Inv := h

theorem CrcUnit.check_inv {u : CrcUnit} (h : u.Inv) (b : Byte) : (u.check b).Inv := by
  obtain ⟨hseed, -, -⟩ := h
  exact ⟨hseed, fun _ => rfl, nofun⟩

/-- What is no CRC command leaves the CRC unit. -/
theorem exec_crcUnit_of_not_crc {i : Instr} {s t : State} (hi : isCrcCommand i = false) (h : exec i s = .next t) :
    t.crcUnit = s.crcUnit := by
  obtain ⟨hcrc, -⟩ | ⟨-, -, u, rfl⟩ | ⟨-, -, cause, opc, rfl⟩ | ⟨-, rfl⟩ | ⟨index, -, rfl⟩ | ⟨-, rfl⟩ := exec_shape h
  · cases hi.symm.trans hcrc
  all_goals rfl

theorem exec_keeps_crcInv {i : Instr} {s t : State} (h : exec i s = .next t) (hinv : s.crcUnit.Inv) : t.crcUnit.Inv := by
  cases hi : isCrcCommand i with
  | false =>
    rw [exec_crcUnit_of_not_crc hi h]
    exact hinv
  | true =>
    cases i with
    | cfgAddr a => cases h; exact CrcUnit.configure_inv hinv a
    | crcInit => cases h; exact CrcUnit.begin_inv hinv _
    | crcLoad b => cases h; exact CrcUnit.begin_inv hinv b
    | crcByte b => cases h; exact CrcUnit.absorb_inv hinv b
    | crcCheck b => cases h; exact CrcUnit.check_inv hinv b
    | _ => cases hi

/-! ## The retry unit (R31, R32, R34, R35) -/

/-- A transaction begins with an outcome that fits its phase. -/
theorem RetryUnit.start_outcomeInv (u : RetryUnit) (m : Byte) : (u.start m).OutcomeInv := by
  by_cases hm : m = 0x00
  · rw [hm, start_zero]
    simp [OutcomeInv, ResultCode.classOf]
  · rw [start_of_ne hm]
    simp [OutcomeInv]

/-- A report sets EXHAUSTED exactly where it ends the transaction with a transient result, in the last attempt. -/
theorem RetryUnit.report_outcomeInv {u : RetryUnit} (hle : u.attempt.toNat ≤ u.maxAtt.toNat)
    (hexhausted : u.exhausted = false) (haborted : u.aborted = false) (r : ResultCode) : (u.report r).OutcomeInv := by
  by_cases hr : r.classOf = .transient
  · by_cases hlt : u.attempt.toNat < u.maxAtt.toNat
    · rw [report_of_transient hr hlt]
      simp [OutcomeInv, hr, hexhausted, haborted]
    · have hlast : u.attempt = u.maxAtt := BitVec.eq_of_toNat_eq (by omega)
      rw [report_of_exhausted hr hlt]
      simp [OutcomeInv, hr, haborted, hlast]
  · rw [report_of_final hr]
    simp [OutcomeInv, hr, hexhausted, haborted]

/-- Every step of a transaction keeps RESULT, EXHAUSTED and ABORTED in accord with the phase. -/
theorem RtStep.keeps_outcomeInv {i : Instr} {u v : RetryUnit} (h : RtStep i u v) (hattempt : u.AttemptInv)
    (hinv : u.OutcomeInv) : v.OutcomeInv := by
  obtain ⟨hin, hwait, -, -⟩ := hattempt
  obtain ⟨hexhausted, haborted, hunderway, hfailed, -, hended⟩ := hinv
  cases h with
  | start m h => exact u.start_outcomeInv m
  | report r h =>
    obtain ⟨hnoexhaust, hnoabort⟩ := hunderway (.inl h)
    exact RetryUnit.report_outcomeInv (hin (.inl h)).2 hnoexhaust hnoabort r
  | retry h =>
    obtain ⟨hnoexhaust, hnoabort⟩ := hunderway (.inr h)
    obtain ⟨hpos, -⟩ := hin (.inr h)
    have hne : u.attempt ≠ 0#8 := by bv_omega
    simp [RetryUnit.OutcomeInv, hnoexhaust, hnoabort, hfailed h, hne]
  | abort h =>
    obtain ⟨hnoexhaust, -⟩ := hunderway (.inr h)
    simp [RetryUnit.OutcomeInv, hnoexhaust, hwait h, hfailed h]
  | clear h =>
    exact ⟨hexhausted, haborted, by simp, nofun, nofun, fun _ => hended (.inl h)⟩

theorem exec_keeps_retryInv {i : Instr} {s t : State} (h : exec i s = .next t) (hattempt : s.retryUnit.AttemptInv)
    (houtcome : s.retryUnit.OutcomeInv) : t.retryUnit.AttemptInv ∧ t.retryUnit.OutcomeInv := by
  obtain ⟨-, -, hstep⟩ | ⟨-, hkeep⟩ := exec_rtStep_or_transaction h
  · exact ⟨hstep.keeps_attemptInv hattempt, hstep.keeps_outcomeInv hattempt houtcome⟩
  · change t.retryUnit.transaction.AttemptInv ∧ t.retryUnit.transaction.OutcomeInv
    rw [hkeep]
    exact ⟨hattempt, houtcome⟩

/-! ## The error record (R38, R116) -/

theorem ErrorRecord.capture_inv {e : ErrorRecord} (h : e.Inv) {cause : ErrCause} (hcause : cause ≠ .none) (opc : Byte) :
    (e.capture cause opc).Inv := by
  cases hset : e.cmdErr with
  | true => rwa [capture_of_set hset]
  | false =>
    rw [capture_of_clear hset]
    exact ⟨nofun, fun _ => hcause⟩

theorem exec_keeps_errorsInv {i : Instr} {s t : State} (h : exec i s = .next t) (hinv : s.errors.Inv) : t.errors.Inv := by
  obtain hkeep | ⟨-, hclear⟩ | ⟨-, cause, opc, hcause, hcapture⟩ := exec_errors h
  · rwa [hkeep]
  · rw [hclear]
    decide
  · rw [hcapture]
    exact ErrorRecord.capture_inv hinv hcause opc

/-! ## The whole state -/

theorem exec_keeps_inv {i : Instr} {s t : State} (h : exec i s = .next t) (hinv : s.Inv) : t.Inv := by
  obtain ⟨hcrc, hattempt, houtcome, herrors⟩ := hinv
  obtain ⟨hattempt', houtcome'⟩ := exec_keeps_retryInv h hattempt houtcome
  exact ⟨exec_keeps_crcInv h hcrc, hattempt', houtcome', exec_keeps_errorsInv h herrors⟩

theorem runCommand_keeps_inv {w : Word} {s t : State} (h : runCommand w s = .next t) (hinv : s.Inv) : t.Inv := by
  cases hw : decodeCommand w with
  | ok i =>
    rw [runCommand_of_ok hw] at h
    exact exec_keeps_inv h hinv
  | error e =>
    have hcause : causeOf e ≠ .none := by cases e <;> exact nofun
    obtain ⟨hcrc, hattempt, houtcome, herrors⟩ := hinv
    cases h.symm.trans (runCommand_of_error hw s)
    exact ⟨hcrc, hattempt, houtcome, ErrorRecord.capture_inv herrors hcause _⟩

/-- Settles O49: each element of the reset state is a literal. -/
theorem resetMeetsTheInvariants : Obligations.ResetMeetsTheInvariants := by
  unfold Obligations.ResetMeetsTheInvariants
  decide

/-- The reset event leaves a state whose block is the reset state's. -/
theorem resetBlock_inv (s : State) : (resetBlock s).Inv := resetMeetsTheInvariants

theorem runOp_keeps_inv {op : HostOp} {s t : State} (h : runOp op s = .next t) (hinv : s.Inv) : t.Inv := by
  cases op with
  | writeCmd w => exact runCommand_keeps_inv h hinv
  | readReg index => exact exec_keeps_inv (i := .regRead index) h hinv
  | reset =>
    cases h
    exact resetBlock_inv s
  | resetDuringCmd w =>
    obtain hrace | hrace := runOp_resetDuringCmd w s
    · cases h.symm.trans hrace
      exact resetBlock_inv _
    · exact runCommand_keeps_inv (hrace.symm.trans h) (resetBlock_inv _)

/-- Settles O50: a step is the oldest operation, or nothing, and no invariant speaks of what is pending. -/
theorem stepKeepsTheInvariants : Obligations.StepKeepsTheInvariants := by
  intro s t hinv h
  cases hpending : s.host.pending with
  | nil =>
    cases h.symm.trans (step_of_nil hpending)
    exact hinv
  | cons op rest =>
    rw [step_of_cons hpending] at h
    exact runOp_keeps_inv h hinv

end Sys2Proof.Machine
end

section
/-!
PROOFS. The writers of each element of the state (10_state.md R22 to R38), and the obligation OnlyTheNamedCommandsWrite.
-/
namespace Sys2Proof.Machine

/-! ## The CRC unit's elements -/

/-- What each CRC command leaves of its unit: the packet's elements or the address, and the verdict or the running value. -/
theorem exec_crcUnit_writers {i : Instr} {s t : State} (h : exec i s = .next t) :
    (t.crcUnit.devAddr ≠ s.crcUnit.devAddr ∨ t.crcUnit.seed ≠ s.crcUnit.seed → ∃ a, i = .cfgAddr a) ∧
    (t.crcUnit.crc ≠ s.crcUnit.crc ∨ t.crcUnit.count ≠ s.crcUnit.count →
      i = .crcInit ∨ (∃ b, i = .crcLoad b) ∨ ∃ b, i = .crcByte b) ∧
    (t.crcUnit.chkDone ≠ s.crcUnit.chkDone ∨ t.crcUnit.chkOk ≠ s.crcUnit.chkOk ∨
        t.crcUnit.chkRcvd ≠ s.crcUnit.chkRcvd →
      i = .crcInit ∨ (∃ b, i = .crcLoad b) ∨ ∃ b, i = .crcCheck b) := by
  cases hi : isCrcCommand i with
  | false => simp [exec_crcUnit_of_not_crc hi h]
  | true =>
    cases i with
    | cfgAddr | crcInit | crcLoad | crcByte | crcCheck => cases h; simp
    | _ => cases hi

/-! ## The retry unit's elements -/

@[simp] theorem RetryUnit.start_boBase (u : RetryUnit) (m : Byte) : (u.start m).boBase = u.boBase := by
  unfold start
  split <;> rfl

@[simp] theorem RetryUnit.start_boCap (u : RetryUnit) (m : Byte) : (u.start m).boCap = u.boCap := by
  unfold start
  split <;> rfl

@[simp] theorem RetryUnit.report_aborted (u : RetryUnit) (r : ResultCode) : (u.report r).aborted = u.aborted := by
  unfold report
  (repeat' split) <;> rfl

@[simp] theorem RetryUnit.report_boBase (u : RetryUnit) (r : ResultCode) : (u.report r).boBase = u.boBase := by
  unfold report
  (repeat' split) <;> rfl

@[simp] theorem RetryUnit.report_boCap (u : RetryUnit) (r : ResultCode) : (u.report r).boCap = u.boCap := by
  unfold report
  (repeat' split) <;> rfl

/-- Where the retry unit goes from `u` to `v` under `i`, each element that differs is one that `i` writes (R30 to R37). -/
structure WritesOwnElements (i : Instr) (u v : RetryUnit) : Prop where
  maxAtt : v.maxAtt ≠ u.maxAtt → ∃ m, i = .rtStart m
  attempt : v.attempt ≠ u.attempt → (∃ m, i = .rtStart m) ∨ i = .rtRetry
  outcome : v.result ≠ u.result ∨ v.exhausted ≠ u.exhausted ∨ v.backoff ≠ u.backoff →
    (∃ m, i = .rtStart m) ∨ ∃ c, i = .rtReport c
  aborted : v.aborted ≠ u.aborted → (∃ m, i = .rtStart m) ∨ i = .rtAbort
  boBase : v.boBase ≠ u.boBase → ∃ b, i = .cfgBoBase b
  boCap : v.boCap ≠ u.boCap → ∃ b, i = .cfgBoCap b

theorem WritesOwnElements.refl (i : Instr) (u : RetryUnit) : WritesOwnElements i u u := by constructor <;> simp

theorem RtStep.writesOwnElements {i : Instr} {u v : RetryUnit} (h : RtStep i u v) : WritesOwnElements i u v := by
  cases h with
  | start | report | retry | abort | clear => constructor <;> simp

theorem exec_writesOwnElements {i : Instr} {s t : State} (h : exec i s = .next t) :
    WritesOwnElements i s.retryUnit t.retryUnit := by
  obtain ⟨hcrc, -⟩ | ⟨hi, hlegal, u, rfl⟩ | ⟨-, -, cause, opc, rfl⟩ | ⟨-, rfl⟩ | ⟨index, -, rfl⟩ | ⟨-, rfl⟩ := exec_shape h
  · rw [exec_crc_retryUnit hcrc h]
    exact .refl i _
  · cases hrt : isRtCommand i with
    | true =>
      obtain ⟨v, hv⟩ := exists_rtStep hrt hlegal
      obtain ⟨-, -, hexec⟩ := hv.accepted
      cases h.symm.trans hexec
      exact hv.writesOwnElements
    | false =>
      cases i with
      | cfgBoBase | cfgBoCap => cases h; constructor <;> simp
      | _ => simp [isRetryCommand, isRtCommand] at hi hrt
  all_goals exact .refl i _

/-- RT_STATE changes by a step of a transaction alone. -/
theorem accepted_of_rtState_ne {i : Instr} {s t : State} (h : exec i s = .next t)
    (hne : t.retryUnit.rtState ≠ s.retryUnit.rtState) : isRtCommand i = true ∧ legalIn i s = true := by
  obtain ⟨hrt, hlegal, -⟩ | ⟨-, hkeep⟩ := exec_rtStep_or_transaction h
  · exact ⟨hrt, hlegal⟩
  · exact absurd (congrArg RetryUnit.rtState hkeep) hne

/-- The error record changes by CLR_ERR, or by the first command error. -/
theorem clrErr_or_first_of_errors_ne {i : Instr} {s t : State} (h : exec i s = .next t) (hne : t.errors ≠ s.errors) :
    i = .clrErr ∨ (s.errors.cmdErr = false ∧ legalIn i s = false) := by
  obtain hkeep | ⟨hclr, -⟩ | ⟨hillegal, cause, opc, -, hcapture⟩ := exec_errors h
  · exact absurd hkeep hne
  · exact .inl hclr
  · cases hset : s.errors.cmdErr with
    | false => exact .inr ⟨rfl, hillegal⟩
    | true => exact absurd (hcapture.trans (ErrorRecord.capture_of_set hset cause opc)) hne

/-- Settles O52: each element's writers by the lemma on its unit. -/
theorem onlyTheNamedCommandsWrite : Obligations.OnlyTheNamedCommandsWrite := by
  intro i s t h
  obtain ⟨haddr, hrunning, hverdict⟩ := exec_crcUnit_writers h
  have hretry := exec_writesOwnElements h
  exact ⟨haddr, hrunning, hverdict, hretry.maxAtt, hretry.attempt, hretry.outcome, hretry.aborted,
    accepted_of_rtState_ne h, hretry.boBase, hretry.boCap, clrErr_or_first_of_errors_ne h,
    (exec_host h).resolve_left⟩

end Sys2Proof.Machine
end

section
/-!
PROOFS. PERFORM (30_encoding.md R73): the passes of its loop over failed attempts, the ways its last attempt ends, and the
obligation PerformReturnsTheResult.
-/
namespace Sys2Proof.Machine

section
variable {giveUp : Byte → Bool} {u : RetryUnit} {r : ResultCode} {fails : List ResultCode}

/-- A failure with budget left and the retry after it: the attempt number goes up, RESULT and BACKOFF are the failure's. -/
theorem RetryUnit.retry_report (hissue : u.rtState = .issue) (hr : r.classOf = .transient)
    (hlt : u.attempt.toNat < u.maxAtt.toNat) : (u.report r).retry =
      { u with attempt := u.attempt + 1, result := r, backoff := backoffAt u.boBase u.boCap u.attempt.toNat } := by
  rw [report_of_transient hr hlt, retry, ← hissue]

/-- Two passes of the loop over an attempt that failed with budget left: the report, and what the host decides. -/
theorem performLoop_of_fail (hissue : u.rtState = .issue) (hr : r.classOf = .transient)
    (hlt : u.attempt.toNat < u.maxAtt.toNat) (fuel : Nat) (rest : List ResultCode) (s : State) :
    performLoop giveUp (fuel + 2) (r :: rest) (s.setRetryUnit u) = performLoop giveUp fuel rest
      (s.setRetryUnit (if giveUp u.attempt then (u.report r).abort else (u.report r).retry)) := by
  have hwait : (s.setRetryUnit (u.report r)).retryUnit.rtState = .wait := by
    rw [State.setRetryUnit_retryUnit, RetryUnit.report_of_transient hr hlt]
  rw [performLoop_of_issue hissue]
  refine (performLoop_of_wait hwait giveUp fuel rest).trans ?_
  rw [State.setRetryUnit_retryUnit, RetryUnit.report_attempt]
  rfl

/-- The failed attempts after which the host retries: the attempt number has gone up, RESULT and BACKOFF are the last
failure's, and all else is as before. -/
theorem performLoop_of_fails (hissue : u.rtState = .issue) (hfails : ∀ r ∈ fails, r.classOf = .transient)
    (hbudget : u.attempt.toNat + fails.length ≤ u.maxAtt.toNat)
    (hretry : ∀ k, u.attempt.toNat ≤ k → k < u.attempt.toNat + fails.length → giveUp (BitVec.ofNat 8 k) = false)
    (fuel : Nat) (rest : List ResultCode) (s : State) : ∃ result backoff,
    performLoop giveUp (fuel + 2 * fails.length) (fails ++ rest) (s.setRetryUnit u) =
      performLoop giveUp fuel rest (s.setRetryUnit
        { u with attempt := BitVec.ofNat 8 (u.attempt.toNat + fails.length), result := result, backoff := backoff }) := by
  induction fails generalizing u with
  | nil => exact ⟨u.result, u.backoff, by simp⟩
  | cons r fails ih =>
    obtain ⟨hr, hfails⟩ := List.forall_mem_cons.mp hfails
    rw [List.length_cons] at hbudget hretry
    have hlt : u.attempt.toNat < u.maxAtt.toNat := by omega
    have hgoOn : giveUp u.attempt = false := by simpa using hretry u.attempt.toNat le_rfl (by omega)
    have hsucc : (u.report r).retry.attempt.toNat = u.attempt.toNat + 1 := by
      rw [RetryUnit.retry_attempt_toNat (by simpa using hlt), RetryUnit.report_attempt]
    obtain ⟨result, backoff, hloop⟩ := ih (u := (u.report r).retry) rfl hfails
      (by rw [hsucc, RetryUnit.retry_maxAtt, RetryUnit.report_maxAtt]; omega)
      (fun k hle hk => hretry k (by omega) (by omega))
    refine ⟨result, backoff, (performLoop_of_fail hissue hr hlt _ _ s).trans ?_⟩
    rw [hgoOn]
    refine hloop.trans ?_
    rw [hsucc, RetryUnit.retry_report hissue hr hlt, List.length_cons, Nat.add_assoc, Nat.add_comm 1]

/-- In DONE the loop answers the code of RESULT and acknowledges. -/
theorem performLoop_result_of_done (hdone : u.rtState = .done) (fuel : Nat) (outcomes : List ResultCode) (s : State) :
    performLoop giveUp (fuel + 1) outcomes (s.setRetryUnit u) =
      some (u.result.toCode4, s.setRetryUnit u.acknowledge) :=
  (performLoop_of_done hdone giveUp fuel outcomes).trans
    (congrArg (fun c => some (c, s.setRetryUnit u.acknowledge)) (statusWord_result (s.setRetryUnit u)))

theorem perform_of_idle {s : State} (hidle : s.retryUnit.rtState = .idle) (m : Byte) (outcomes : List ResultCode) :
    perform m outcomes giveUp s =
      performLoop giveUp (2 * m.toNat + 1) outcomes (s.setRetryUnit (s.retryUnit.start m)) := by
  rw [perform, exec_rtStart hidle]

/-- PERFORM after attempts that failed and that the host retried: it stands in the next attempt, with passes left for a
report, a retry or an abort, and the acknowledgement. -/
theorem perform_of_fails {s : State} {m : Byte} (hidle : s.retryUnit.rtState = .idle)
    (hfails : ∀ r ∈ fails, r.classOf = .transient) (hbudget : fails.length < m.toNat)
    (hretry : ∀ k, 1 ≤ k → k ≤ fails.length → giveUp (BitVec.ofNat 8 k) = false) (rest : List ResultCode) :
    ∃ v fuel, perform m (fails ++ rest) giveUp s = performLoop giveUp (fuel + 3) rest (s.setRetryUnit v) ∧
      v.rtState = .issue ∧ v.maxAtt = m ∧ v.attempt.toNat = fails.length + 1 ∧
      v.exhausted = false ∧ v.aborted = false := by
  have hm : m ≠ 0x00 := by
    rintro rfl
    exact Nat.not_lt_zero _ hbudget
  obtain ⟨hissue, hmax, hone, hexhausted, haborted⟩ : (s.retryUnit.start m).rtState = .issue ∧
      (s.retryUnit.start m).maxAtt = m ∧ (s.retryUnit.start m).attempt.toNat = 1 ∧
      (s.retryUnit.start m).exhausted = false ∧ (s.retryUnit.start m).aborted = false := by
    rw [RetryUnit.start_of_ne hm]
    exact ⟨rfl, rfl, rfl, rfl, rfl⟩
  have hpasses : 2 * m.toNat + 1 = 2 * (m.toNat - fails.length - 1) + 3 + 2 * fails.length := by omega
  rw [perform_of_idle hidle, hpasses]
  obtain ⟨result, backoff, hloop⟩ := performLoop_of_fails hissue hfails (by rw [hone, hmax]; omega)
    (fun k hle hk => hretry k (by omega) (by omega)) (2 * (m.toNat - fails.length - 1) + 3) rest s
  have hnum : (BitVec.ofNat 8 (1 + fails.length)).toNat = fails.length + 1 :=
    (Nat.mod_eq_of_lt (by omega)).trans (Nat.add_comm 1 _)
  exact ⟨_, _, hloop, hissue, hmax, by rw [hone, hnum], hexhausted, haborted⟩

end

/-- Settles O41: the last attempt is reported after the failed ones; its report or the abort after it ends the transaction,
whose result the next pass answers. PERFORM 0 is in DONE at once. -/
theorem performReturnsTheResult : Obligations.PerformReturnsTheResult := by
  refine ⟨fun s m fails last more giveUp hidle _ hfails hbudget hlast hretry => ?_,
    fun s m fails last more giveUp hidle hfails hlast hbudget hretry hgiveUp => ?_, fun s outcomes giveUp hidle => ?_⟩
  · obtain ⟨v, fuel, hperform, hissue, hmax, hnum, hexhausted, haborted⟩ :=
      perform_of_fails hidle hfails hbudget hretry (last :: more)
    have hreport := RetryUnit.report_last hexhausted (fun h => by rw [hnum, hmax, hlast h])
    refine ⟨s.setRetryUnit (v.ended [] last).acknowledge, ?_, rfl, rfl, ?_, rfl, haborted, rfl, rfl⟩
    · rw [hperform, performLoop_of_issue hissue, State.setRetryUnit_retryUnit, hreport]
      exact performLoop_result_of_done rfl _ _ s
    · simp [RetryUnit.ended, hnum]
  · obtain ⟨v, fuel, hperform, hissue, hmax, hnum, hexhausted, -⟩ :=
      perform_of_fails hidle hfails (Nat.lt_of_succ_lt hbudget) hretry (last :: more)
    have hattempt : v.attempt = BitVec.ofNat 8 (fails.length + 1) := by simp [← hnum]
    have hlt : v.attempt.toNat < v.maxAtt.toNat := by rwa [hnum, hmax]
    have hreport := RetryUnit.report_of_transient hlast hlt
    refine ⟨s.setRetryUnit (v.report last).abort.acknowledge, ?_, rfl, ?_, ?_, ?_, rfl, rfl, rfl⟩
    · rw [hperform, performLoop_of_fail hissue hlast hlt, hattempt, hgiveUp, hreport]
      exact performLoop_result_of_done rfl _ _ s
    · simp [hreport]
    · simp [hnum]
    · simp [hreport, hexhausted]
  · refine ⟨s.setRetryUnit (s.retryUnit.start 0x00).acknowledge, ?_, rfl, rfl, rfl, rfl, rfl, rfl, rfl, rfl⟩
    rw [perform_of_idle hidle]
    exact performLoop_result_of_done rfl 0 outcomes s

end Sys2Proof.Machine
end

section
/-!
PROOFS. Steps, register reads and assembler text: the obligations StepRunsTheDecodedInstruction, RegReadAnswersTheWord,
ReadMapGivesEachIndexItsWord and AssemblerSpellings.
-/
namespace Sys2Proof.Machine

/-- Settles O8: a step runs the oldest operation, and a command write runs what its word decodes to. -/
theorem stepRunsTheDecodedInstruction : Obligations.StepRunsTheDecodedInstruction :=
  ⟨fun _ _ _ _ hpending hok => (step_of_cons hpending).trans (runCommand_of_ok hok _),
    fun _ _ _ hpending => step_of_cons hpending,
    fun _ _ _ _ hpending herror => (step_of_cons hpending).trans (runCommand_of_error herror _),
    fun _ _ _ hpending => step_of_cons hpending, fun _ => step_of_nil⟩

/-- A register read leaves the block, so every register reads the same after it. -/
theorem readRegister_answer (s : State) (w : Word) (index : RegIndex) :
    readRegister (s.answer w) index = readRegister s index :=
  readRegister_congr (State.answer_crcUnit s w) (State.answer_retryUnit s w) (State.answer_errors s w) index

/-- Settles O11: a read answers the word, and no word depends on the answers before it. -/
theorem regReadAnswersTheWord : Obligations.RegReadAnswersTheWord := by
  refine ⟨fun _ _ => rfl, fun index s => ⟨_, rfl, ?_⟩, fun index j s t h => ?_⟩
  · rw [State.answer_answers, State.answer_answers, readRegister_answer]
  · cases h
    exact readRegister_answer s _ j

/-- Settles O12: the read map read out index by index. -/
theorem readMapGivesEachIndexItsWord : Obligations.ReadMapGivesEachIndexItsWord := by
  refine ⟨fun s => ⟨rfl, rfl, rfl, rfl, rfl, rfl, rfl, rfl, rfl⟩, fun index s hi => readRegister_reserved hi s,
    fun index s t h => ?_⟩
  cases h
  exact ⟨State.answer_crcUnit s _, State.answer_retryUnit s _, State.answer_errors s _⟩

/-- Settles O54: each line is evaluated. -/
theorem assemblerSpellings : Obligations.AssemblerSpellings :=
  ⟨rfl, rfl, rfl, rfl, rfl, rfl, rfl, rfl, rfl, rfl⟩

end Sys2Proof.Machine
end
